-- ==== Sys2Proof/Word.lean ====
section
/-! DEFINITION. The word types of the Korlum K880 and their plainest arithmetic.
R16: bit 0 is the least significant bit; R70: an instruction is one 32-bit word; R60: special registers are 32 or
64 bits wide. -/

namespace Sys2Proof

/-- A lane of a vector register, an instruction word (R45, R70). -/
abbrev Word := BitVec 32

/-- A 64-bit value: a register pair, an address, a walker register (R29, R232). -/
abbrev DWord := BitVec 64

/-- One byte of memory (R16). -/
abbrev Byte := BitVec 8

/-- A 64-byte record: continuation records, queue items, descriptors (R137, R396). -/
abbrev Line := BitVec 512

/-- `SignExtend(x, n)` to 64 bits of R32, for a value already held in `n` bits. -/
def sext64 {n : Nat} (x : BitVec n) : DWord := x.signExtend 64

/-- `ZeroExtend(x, n)` to 64 bits of R32. -/
def zext64 {n : Nat} (x : BitVec n) : DWord := x.setWidth 64

/-- The even register of a pair is the low half (R29). -/
def joinWords (lo hi : Word) : DWord := hi ++ lo

/-- Bits [31:0] of a 64-bit value. -/
def loWord (x : DWord) : Word := x.extractLsb' 0 32

/-- Bits [63:32] of a 64-bit value. -/
def hiWord (x : DWord) : Word := x.extractLsb' 32 32

end Sys2Proof
end

