-- ==== Sys2Proof/Machine/Assoc.lean ====
section
/-! DEFINITION. Sparse data by key: lists of (key, value) pairs with strictly rising keys, and the memory kept as one.
Reading and writing are total; the laws are in Laws/Assoc.lean. -/

namespace Sys2Proof.Machine

/-- Sparse data by key. -/
abbrev Assoc (α : Type) := List (Nat × α)

/-- The value listed at key `k`. -/
def Assoc.find {α : Type} : Assoc α → Nat → Option α
  | [], _ => none
  | (k', v) :: t, k => if k' = k then some v else Assoc.find t k

/-- List `v` at key `k`, keeping the keys rising. -/
def Assoc.set {α : Type} : Assoc α → Nat → α → Assoc α
  | [], k, v => [(k, v)]
  | (k', v') :: t, k, v =>
    if k' < k then (k', v') :: Assoc.set t k v
    else if k' = k then (k, v) :: t
    else (k, v) :: (k', v') :: t

/-- List nothing at key `k`. -/
def Assoc.erase {α : Type} : Assoc α → Nat → Assoc α
  | [], _ => []
  | (k', v') :: t, k => if k' = k then Assoc.erase t k else (k', v') :: Assoc.erase t k

/-- The keys rise strictly. -/
def Assoc.rising {α : Type} : Assoc α → Bool
  | [] => true
  | [_] => true
  | (k, _) :: (k', v') :: t => decide (k < k') && Assoc.rising ((k', v') :: t)

/-- All bytes the device can address, in one list of cells: device memory at its physical address, host memory at
0x4_0000_0000_0000 on (R418), and scratchpad bytes at their peer-window address (R172). -/
abbrev Memory := List Host.Cell

/-- What an address that is not listed reads as. The spec gives no power-on content of memory; a newly admitted
block's allocation reads 0 by R41. DESIGN CHOICE (assumption 2). -/
def Memory.unlisted : Byte := 0

/-- One byte. -/
def Memory.read (m : Memory) (a : Nat) : Byte := (Assoc.find m a).getD Memory.unlisted

/-- Store one byte, keeping the canonical form. -/
def Memory.write (m : Memory) (a : Nat) (b : Byte) : Memory :=
  if b = Memory.unlisted then Assoc.erase m a else Assoc.set m a b

/-- The canonical form: rising addresses, and no entry equal to what an unlisted address reads as. -/
def Memory.wf (m : Memory) : Bool := Assoc.rising m && m.all fun c => decide (c.2 ≠ Memory.unlisted)

/-- Store the cells of a list, first to last. -/
def Memory.writeCells (m : Memory) : List Host.Cell → Memory
  | [] => m
  | c :: cs => Memory.writeCells (m.write c.1 c.2) cs

/-- `n` bytes from `a` on, lowest address first. -/
def Memory.bytes (m : Memory) (a : Nat) : Nat → List Byte
  | 0 => []
  | n + 1 => m.read a :: m.bytes (a + 1) n

/-- Little-endian value of a list of bytes (R16). -/
def leNat : List Byte → Nat
  | [] => 0
  | b :: t => b.toNat + 256 * leNat t

/-- The low `n` bytes of a value, lowest first (R16). -/
def leBytes (x : Nat) : Nat → List Byte
  | 0 => []
  | n + 1 => BitVec.ofNat 8 x :: leBytes (x / 256) n

/-- The `n`-byte little-endian value at `a`. -/
def Memory.readLE (m : Memory) (a n : Nat) : Nat := leNat (m.bytes a n)

/-- Cells of a run of bytes from `a` on. -/
def cellsFrom (a : Nat) : List Byte → List Host.Cell
  | [] => []
  | b :: t => (a, b) :: cellsFrom (a + 1) t

/-- Store the low `n` bytes of `x` at `a`. -/
def Memory.writeLE (m : Memory) (a n x : Nat) : Memory := m.writeCells (cellsFrom a (leBytes x n))

/-- The 64 bytes of a record, lowest address first. -/
def lineBytes (l : Line) : List Byte := leBytes l.toNat 64

/-- The `n`-byte field of a record at byte `off`. -/
def lineField (l : Line) (off n : Nat) : Nat := l.toNat / 256 ^ off % 256 ^ n

/-- Replace the `n`-byte field at byte `off`. -/
def lineSet (l : Line) (off n x : Nat) : Line :=
  BitVec.ofNat 512 (l.toNat - lineField l off n * 256 ^ off + x % 256 ^ n * 256 ^ off)

/-- A record from its bytes. -/
def lineOf (bs : List Byte) : Line := BitVec.ofNat 512 (leNat bs)

end Sys2Proof.Machine
end

