-- ==== Sys2Proof/Syntax.lean ====
section
/-! DEFINITION. The syntax: one constructor for every row of spec/opcode_table.json. Operand kinds of R75 that bound a
field are in the type: a register pair is its index k (it names v2k:v2k+1), a predicate and a tile slot are 3 bits,
a zero field is absent. What a type does not bound is in WellFormed.lean. -/

namespace Sys2Proof

/-- A general register v0 to v255 (R75 kind reg). -/
abbrev Reg := BitVec 8
/-- Index k of the register pair v2k:v2k+1 (R75 kind pair). -/
abbrev Pair := BitVec 7
/-- A predicate p0 to p7 (R75 kind pred). -/
abbrev Pred := BitVec 3
/-- An accumulator tile slot (R75 kind slot). -/
abbrev Slot := BitVec 3
/-- A walker register w0 to w15 (R253). -/
abbrev WReg := BitVec 4
/-- Signed word offset of Form D (R74). -/
abbrev Off24 := BitVec 24

/-- The answer of the partner card to an access of R426: the bytes it read, with the lines (physical address / 64) that came as
poisoned, or a fault response. -/
inductive FabricReply where
  | data (cells : List (Nat × BitVec 8)) (bad : List Nat)
  | faultResponse
  deriving DecidableEq, Repr

/-- The access kinds of R419 and R424. -/
inductive AccessKind where
  | read | write | atomic | fetch | tableRead
  deriving DecidableEq, Repr

/-- A request of the partner card at this card's ingress (R423, R424). For an atomic, `op` counts the instructions of R161
from `AADD` (0) to `ACAS` (7), `ty` is the element type's code, and `data` holds the operand and then the value to compare
with. -/
structure IngressReq where
  index : Nat
  offset : Nat
  size : Nat
  kind : AccessKind
  key : Word
  data : List (BitVec 8)
  op : BitVec 3 := 0
  ty : BitVec 4 := 4
  sat : Bool := false
  deriving DecidableEq, Repr

/-- An entry of the walker stack (R232). -/
structure StackEntry where
  ref : DWord
  key : Word
  aux : Word
  deriving DecidableEq, Repr

/-- A hand-off message (R248). `stack` holds every entry, lowest depth first. -/
structure HandoffMsg where
  core : Nat
  pav : Nat
  ctx : Nat
  prog : Nat
  regs : List DWord
  named : WReg
  f : Bool
  pc : DWord
  stack : List StackEntry
  nodebuf : List (BitVec 8)
  noderef : DWord
  query : Line
  tag : Word
  origin : Nat
  deriving DecidableEq, Repr

/-- The outcome of a SECDED or check-value test of what is read (R427, R428). -/
inductive EccResult where
  | clean | single | double | checkFailed
  deriving DecidableEq, Repr

/-- The hops that a line travels over (R427). -/
inductive Hop where
  | network | ucie | ualink
  deriving DecidableEq, Repr

/-- The sends of a line over a hop: the check values with which they came, the first at the head (R427). -/
structure Sends where
  hop : Hop := .ucie
  values : List Word := []
  deriving DecidableEq, Repr

/-- How a line of a load arrives: which of the load's lines it is, what its read found, and its sends (R427, R428). -/
structure LineArrival where
  ecc : EccResult
  index : Nat := 0
  hops : Sends := {}
  deriving DecidableEq, Repr

/-- A read of the host: its bytes, and whether a check fails at the egress (R427). -/
structure HostRead where
  len : Nat
  egressFails : Bool := false
  deriving DecidableEq, Repr

/-- A walker, and a line that comes to it over a hop (R238, R427). -/
structure WalkerLine where
  walker : Nat
  line : Nat := 0
  hops : Sends := {}
  deriving DecidableEq, Repr

/-- The verdict of the matrix checker on an operation, and, where the batch is executed again, on that: which `MMA` or `MMAP` of
the batch mismatches, counted from its first (R335). -/
inductive CheckResult where
  | pass | mismatchOnce | mismatchTwice (again : Nat)
  deriving DecidableEq, Repr

/-- A unit that acknowledges a shoot-down (R421). -/
inductive ShootUnit where
  | core (c : Nat) | die (d : Nat)
  deriving DecidableEq, Repr

/-- An engine that stops for pre-emption (R219). -/
inductive EngineId where
  | waves (c : Nat) | matrix (pair : Nat) | millrace (c : Nat) | copy (c : Nat) | sampler (c : Nat) | coverage (d : Nat)
  deriving DecidableEq, Repr

/-- What a SECDED test protects (R428): a line of GDDR7, of an L2 slice, of a core's L1, its instruction cache or its node cache; a
scratchpad byte's line; an element of an accumulator slot; a row of the wave in a slot; the rest of its state; or the control
state of a core's engine, a distributor, a die's slices or a coverage unit. And a line on its way to or from any unit over a
hop, which tests its check value (R427). -/
inductive EccPlace where
  | memory (line : Nat) | l2 (line : Nat) | l1 (core line : Nat) | instrCache (core line : Nat) | nodeCache (core line : Nat)
  | scratch (core offset : Nat) | accumulator (pair : Nat) (visible : Bool) (slot element : Nat)
  | row (k : Nat) (r : BitVec 8) | wave (k : Nat)
  | engine (e : EngineId) | distributor (die : Nat) | slices (die : Nat) | hop (line : Nat) (sends : Sends)
  deriving DecidableEq, Repr

/-- Where a record to start stands: a record queue, or the resume list of a class (R401). -/
inductive RecordSource where
  | queue (pav q : Nat) | resume (cls : Nat)
  deriving DecidableEq, Repr

/-- The instruction set: Gyrix (R78), the traversal set (R254), and the steps and events of the device (95). -/
inductive Instr where
  -- Gyrix (R79)
  | nop  -- NOP, R90
  | model (imm : BitVec 16)  -- MODEL, R91
  | modeh (imm : BitVec 8)  -- MODEH, R91
  | modev (a : Reg)  -- MODEV, R92
  | getsr (d : Reg) (sr : BitVec 16)  -- GETSR, R93
  | setsr (a : Reg) (sr : BitVec 16)  -- SETSR, R94
  | ldi (d : Reg) (imm : BitVec 16)  -- LDI, R95
  | ldih (d : Reg) (imm : BitVec 16)  -- LDIH, R95
  | pcrel (d : Pair) (imm : BitVec 16)  -- PCREL, R96
  | cbase (d : Pair) (imm : BitVec 16)  -- CBASE, R96
  | mov (d a : Reg)  -- MOV, R97
  | sel (d a b : Reg)  -- SEL, R98
  | add (d a b : Reg)  -- ADD, R100
  | sub (d a b : Reg)  -- SUB, R100
  | mul (d a b : Reg)  -- MUL, R100
  | mulh (d a b : Reg)  -- MULH, R102
  | mad (d a b : Reg)  -- MAD, R103
  | min (d a b : Reg)  -- MIN, R100
  | max (d a b : Reg)  -- MAX, R100
  | abs (d a : Reg)  -- ABS, R102
  | neg (d a : Reg)  -- NEG, R102
  | and (d a b : Reg)  -- AND, R100
  | or (d a b : Reg)  -- OR, R100
  | xor (d a b : Reg)  -- XOR, R100
  | not (d a : Reg)  -- NOT, R100
  | shl (d a b : Reg)  -- SHL, R101
  | shr (d a b : Reg)  -- SHR, R101
  | clz (d a : Reg)  -- CLZ, R100
  | popc (d a : Reg)  -- POPC, R100
  | bfe (d a b : Reg)  -- BFE, R104
  | bfi (d a b : Reg)  -- BFI, R104
  | addi (d a : Reg) (imm : BitVec 8)  -- ADDI, R100
  | shli (d a : Reg) (c : BitVec 6)  -- SHLI, R101
  | shri (d a : Reg) (c : BitVec 6)  -- SHRI, R101
  | andi (d a : Reg) (imm : BitVec 8)  -- ANDI, R100
  | muli (d a : Reg) (imm : BitVec 8)  -- MULI, R100
  | adda (d a : Pair) (b : Reg)  -- ADDA, R106
  | lea2 (d a : Pair) (b : Reg)  -- LEA2, R106
  | lea4 (d a : Pair) (b : Reg)  -- LEA4, R106
  | lea8 (d a : Pair) (b : Reg)  -- LEA8, R106
  | suba (d : Reg) (a b : Pair)  -- SUBA, R108
  | cmpeq (p : Pred) (a b : Reg)  -- CMPEQ, R109
  | cmpne (p : Pred) (a b : Reg)  -- CMPNE, R109
  | cmplt (p : Pred) (a b : Reg)  -- CMPLT, R109
  | cmple (p : Pred) (a b : Reg)  -- CMPLE, R109
  | cmpgt (p : Pred) (a b : Reg)  -- CMPGT, R109
  | cmpge (p : Pred) (a b : Reg)  -- CMPGE, R109
  | cmpun (p : Pred) (a b : Reg)  -- CMPUN, R109
  | pand (p a b : Pred)  -- PAND, R110
  | por (p a b : Pred)  -- POR, R110
  | pxor (p a b : Pred)  -- PXOR, R110
  | pnot (p a : Pred)  -- PNOT, R110
  | ballot (d : Reg) (a : Pred)  -- BALLOT, R111
  | pfrom (p : Pred) (a : Reg)  -- PFROM, R110
  | shape (d a : Reg)  -- SHAPE, R113
  | expand (d a : Reg)  -- EXPAND, R113
  | laneid (d : Reg)  -- LANEID, R113
  | readlane (d a b : Reg)  -- READLANE, R114
  | shfl (d a b : Reg)  -- SHFL, R114
  | shflup (d a : Reg) (n : BitVec 5)  -- SHFLUP, R115
  | shfldn (d a : Reg) (n : BitVec 5)  -- SHFLDN, R115
  | shflx (d a : Reg) (n : BitVec 5)  -- SHFLX, R115
  | vconflict (d a : Reg)  -- VCONFLICT, R116
  | scanadd (d a : Reg)  -- SCANADD, R117
  | redadd (d a : Reg)  -- REDADD, R118
  | redmin (d a : Reg)  -- REDMIN, R118
  | redmax (d a : Reg)  -- REDMAX, R118
  | compact (d a : Reg)  -- COMPACT, R119
  | fadd (d a b : Reg)  -- FADD, R122
  | fsub (d a b : Reg)  -- FSUB, R122
  | fmul (d a b : Reg)  -- FMUL, R122
  | fma (d a b : Reg)  -- FMA, R122
  | fmin (d a b : Reg)  -- FMIN, R123
  | fmax (d a b : Reg)  -- FMAX, R123
  | fabs (d a : Reg)  -- FABS, R123
  | fneg (d a : Reg)  -- FNEG, R123
  | frcp (d a : Reg)  -- FRCP, R124
  | frsq (d a : Reg)  -- FRSQ, R124
  | fsqrt (d a : Reg)  -- FSQRT, R124
  | fexp2 (d a : Reg)  -- FEXP2, R125
  | flog2 (d a : Reg)  -- FLOG2, R125
  | fsinpi (d a : Reg)  -- FSINPI, R125
  | fcospi (d a : Reg)  -- FCOSPI, R125
  | frnd (d a : Reg)  -- FRND, R126
  | fclass (d a : Reg)  -- FCLASS, R127
  | fdot2 (d a b : Reg)  -- FDOT2, R128
  | cvt (d a : Reg)  -- CVT, R129
  | pack (d a b : Reg)  -- PACK, R130
  | unpk (d a : Reg) (sel : BitVec 2)  -- UNPK, R130
  | fdiv (d a b : Reg)  -- FDIV, R122
  | bra (off : Off24)  -- BRA, R133
  | brc (off : Off24)  -- BRC, R133
  | brca (off : Off24)  -- BRCA, R133
  | call (off : Off24)  -- CALL, R133
  | callr (a : Pair)  -- CALLR, R133
  | ret  -- RET, R133
  | jmpr (a : Pair)  -- JMPR, R133
  | ifLanes (off : Off24)  -- IF, R135
  | elseLanes (off : Off24)  -- ELSE, R135
  | endIf  -- ENDIF, R135
  | loopLanes (off : Off24)  -- LOOP, R135
  | breakLanes (off : Off24)  -- BREAK, R135
  | contLanes (off : Off24)  -- CONT, R135
  | endLoop (off : Off24)  -- ENDLOOP, R135
  | exit  -- EXIT, R141
  | trig  -- TRIG, R142
  | spawn (a : Pair) (b : Reg)  -- SPAWN, R144
  | suspend (a : Pair)  -- SUSPEND, R148
  | join (a : Pair)  -- JOIN, R148
  | deq (d q : Reg)  -- DEQ, R146
  | enq (d : Reg) (a : Pair) (b : Reg)  -- ENQ, R145
  | yield  -- YIELD, R149
  | bar (n : BitVec 4)  -- BAR, R150
  | ld (d : Reg) (a : Pair) (imm : BitVec 8)  -- LD, R151
  | ldx (d : Reg) (a : Pair) (b : Reg)  -- LDX, R151
  | st (d : Reg) (a : Pair) (imm : BitVec 8)  -- ST, R155
  | stx (d : Reg) (a : Pair) (b : Reg)  -- STX, R155
  | lds (d a : Reg) (imm : BitVec 8)  -- LDS, R153
  | sts (d a : Reg) (imm : BitVec 8)  -- STS, R153
  | pref (a : Pair) (imm : BitVec 8)  -- PREF, R156
  | ldz (d : Reg) (a : Pair) (b : Reg)  -- LDZ, R160
  | stz (d : Reg) (a : Pair) (b : Reg)  -- STZ, R159
  | aadd (d : Reg) (a : Pair) (b : Reg)  -- AADD, R161
  | amin (d : Reg) (a : Pair) (b : Reg)  -- AMIN, R161
  | amax (d : Reg) (a : Pair) (b : Reg)  -- AMAX, R161
  | aand (d : Reg) (a : Pair) (b : Reg)  -- AAND, R161
  | aor (d : Reg) (a : Pair) (b : Reg)  -- AOR, R161
  | axor (d : Reg) (a : Pair) (b : Reg)  -- AXOR, R161
  | axchg (d : Reg) (a : Pair) (b : Reg)  -- AXCHG, R161
  | acas (d : Reg) (a : Pair) (b : Reg)  -- ACAS, R161
  | fence (order scope : BitVec 3) (engines unordered : Bool)  -- FENCE, R163
  | publish (a : Pair)  -- PUBLISH, R164
  | arrive (d a : Reg)  -- ARRIVE, R166
  | arrivetx (d a b : Reg)  -- ARRIVETX, R166
  | waitph (a b : Reg)  -- WAITPH, R167
  | cpyset (a : Pair) (reg : BitVec 3) (ch : BitVec 2)  -- CPYSET, R289
  | cpygo (d : Reg) (ch : BitVec 2)  -- CPYGO, R290
  | waitid (a : Reg) (ch : BitVec 2)  -- WAITID, R292
  | rgather (d : Reg) (a : Pair) (b : Reg)  -- RGATHER, R299
  | rscat (d : Reg) (a : Pair) (b : Reg)  -- RSCAT, R299
  | rscatadd (d : Reg) (a : Pair) (b : Reg)  -- RSCATADD, R299
  | coll (d : Reg) (a : Pair) (b : Reg)  -- COLL, R300
  | mma (slot : Slot) (k : BitVec 4) (a b : Pair)  -- MMA, R343
  | mmap (slot : Slot) (k : BitVec 4) (a b : Pair)  -- MMAP, R343
  | mxfence (d : Reg)  -- MXFENCE, R345
  | mxwait (a : Reg)  -- MXWAIT, R346
  | acswap (mask : BitVec 8)  -- ACSWAP, R347
  | acld (d a : Reg) (slot : Slot)  -- ACLD, R348
  | acst (d a : Reg) (slot : Slot)  -- ACST, R348
  | aczero (mask : BitVec 8)  -- ACZERO, R347
  | acdrain (a : Pair) (slot : Slot)  -- ACDRAIN, R350
  | sacc (sd : Slot) (a : Reg) (ss : Slot)  -- SACC, R352
  | cbload (a : Pair) (cb : BitVec 2)  -- CBLOAD, R353
  | mxredx (slot : Slot) (a : Reg)  -- MXREDX, R354
  | rcfence  -- RCFENCE, R355
  | taload (a : Pair) (mode : BitVec 1)  -- TALOAD, R357
  | taeval (slot : Slot) (a : Pair) (b : Reg)  -- TAEVAL, R358
  | leafgather (d : Reg) (a : Pair) (b : Reg)  -- LEAFGATHER, R359
  | sgnproj (d : Reg) (a : Pair) (b : Reg)  -- SGNPROJ, R360
  | tlaunch (d : Reg) (a : Pair) (b : Reg)  -- TLAUNCH, R274
  | cqpop (d : Pair)  -- CQPOP, R275
  | cqwait (a : Reg)  -- CQWAIT, R276
  | ldlod (d a : Pair) (b : Reg)  -- LDLOD, R383
  | sample (d : Reg) (a : Pair) (b : Reg)  -- SAMPLE, R386
  | primemit (a : Pair)  -- PRIMEMIT, R390
  | visrd (d a : Reg)  -- VISRD, R387
  | trap (code : BitVec 16)  -- TRAP, R168
  | brk (code : BitVec 16)  -- BRK, R168
  | rte  -- RTE, R217
  -- the Gyrix traversal set (R258 to R273)
  | nfetch (a : WReg)  -- NFETCH, R258
  | ndec (d : WReg)  -- NDEC, R258
  | nfield (d a : WReg) (k : BitVec 14)  -- NFIELD, R258
  | nchild (d a : WReg)  -- NCHILD, R258
  | boxt (d a : WReg)  -- BOXT, R261
  | trit (d a : WReg)  -- TRIT, R262
  | frust (d a : WReg)  -- FRUST, R263
  | kcmp (d a : WReg) (mode : BitVec 1)  -- KCMP, R264
  | krange (d a b : WReg)  -- KRANGE, R265
  | dist (d a b : WReg) (metric : BitVec 2) (dims : BitVec 12)  -- DIST, R266
  | topk (d a b : WReg)  -- TOPK, R267
  | push (a b : WReg)  -- PUSH, R268
  | pushm (a b : WReg) (order : BitVec 1)  -- PUSHM, R268
  | pop (d : WReg)  -- POP, R268
  | stkd (d : WReg)  -- STKD, R268
  | ldq (d : WReg) (width : BitVec 1) (k : BitVec 4)  -- LDQ, R269
  | stq (a : WReg) (width : BitVec 1) (k : BitVec 4)  -- STQ, R269
  | ldn (d a : WReg) (k : BitVec 14)  -- LDN, R258
  | gtsAdd (d a b : WReg)  -- GTS_ADD, R270
  | gtsAddImm (d a : WReg) (imm : BitVec 13)  -- GTS_ADD_IMM, R270
  | gtsSub (d a b : WReg)  -- GTS_SUB, R270
  | gtsSubImm (d a : WReg) (imm : BitVec 13)  -- GTS_SUB_IMM, R270
  | gtsMul (d a b : WReg)  -- GTS_MUL, R270
  | gtsMulImm (d a : WReg) (imm : BitVec 13)  -- GTS_MUL_IMM, R270
  | gtsAnd (d a b : WReg)  -- GTS_AND, R270
  | gtsAndImm (d a : WReg) (imm : BitVec 13)  -- GTS_AND_IMM, R270
  | gtsOr (d a b : WReg)  -- GTS_OR, R270
  | gtsOrImm (d a : WReg) (imm : BitVec 13)  -- GTS_OR_IMM, R270
  | gtsXor (d a b : WReg)  -- GTS_XOR, R270
  | gtsXorImm (d a : WReg) (imm : BitVec 13)  -- GTS_XOR_IMM, R270
  | gtsShl (d a b : WReg)  -- GTS_SHL, R270
  | gtsShlImm (d a : WReg) (imm : BitVec 13)  -- GTS_SHL_IMM, R270
  | gtsShr (d a b : WReg)  -- GTS_SHR, R270
  | gtsShrImm (d a : WReg) (imm : BitVec 13)  -- GTS_SHR_IMM, R270
  | gtsMov (d a : WReg)  -- GTS_MOV, R270
  | gtsLdi (d : WReg) (imm : BitVec 14)  -- GTS_LDI, R270
  | gtsCmp (a b : WReg) (cond : BitVec 3)  -- CMP, R271
  | jump (off : BitVec 14)  -- J, R272
  | jumpF (off : BitVec 14)  -- JF, R272
  | jumpNF (off : BitVec 14)  -- JNF, R272
  | emit (a : WReg)  -- EMIT, R273
  | hook (a : WReg) (k : BitVec 14)  -- HOOK, R246
  | done (a : WReg)  -- DONE, R273
  | cover (a b : WReg)  -- COVER, R273
  | handoff (a : WReg)  -- HANDOFF, R248
  -- steps and events of the device
  | reset  -- RESET, R451
  | functionReady (bit : Nat) (ok : Bool)  -- FUNCTION_READY, R451
  | thermalTrip  -- THERMAL_TRIP, R458
  | throttleStep (power : BitVec 16)  -- THROTTLE_STEP, R458
  | ualinkEnable (v : Bool)  -- UALINK_ENABLE, R457
  | ualinkUp  -- UALINK_UP, R457
  | ualinkLoss  -- UALINK_LOSS, R457
  | remoteWalkerTimeout (walker : Nat)  -- REMOTE_WALKER_TIMEOUT, R249
  | fabricTimeout (req : Nat)  -- FABRIC_TIMEOUT, R426
  | fabricResponse (req : Nat) (reply : FabricReply)  -- FABRIC_RESPONSE, R426
  | ingressRequest (r : IngressReq)  -- INGRESS_REQUEST, R424
  | ingressTimeout (id : Nat)  -- INGRESS_TIMEOUT, R424
  | handoffArrival (m : HandoffMsg)  -- HANDOFF_ARRIVAL, R248
  | remoteEntryArrival (query : Nat) (status : Nat) (payload : DWord) (record : Line)  -- REMOTE_ENTRY_ARRIVAL, R248
  | hostEnqueueStore (off : Nat) (whole : Bool) (data : Line)  -- HOST_ENQUEUE_STORE, R399
  | hostMemStore (addr : Nat) (data : List (BitVec 8))  -- HOST_MEM_STORE, R193
  | hostMemRead (addr : Nat) (read : HostRead)  -- HOST_MEM_READ, R452
  | cxlSnoop (line : Nat)  -- CXL_SNOOP, R193
  | spdmMeasurements (nonce : BitVec 256)  -- SPDM_MEASUREMENTS, R456
  | registerWrite (vf : Option Nat) (off : Nat) (value : DWord)  -- REGISTER_WRITE, R17
  | queueEnable (pav q : Nat) (desc : Line)  -- QUEUE_ENABLE, R397
  | queueDisable (pav q : Nat)  -- QUEUE_DISABLE, R397
  | faultRetry (pav : Nat) (fltid : Word)  -- FAULT_RETRY, R419
  | faultUnresolvable (pav : Nat) (fltid : Word)  -- FAULT_UNRESOLVABLE, R419
  | faultRecordPost (pav : Nat)  -- FAULT_RECORD_POST, R419
  | shootdownGo (pav : Nat) (ctx : BitVec 16)  -- SHOOTDOWN_GO, R420
  | shootdownAck (pav : Nat) (unit : ShootUnit)  -- SHOOTDOWN_ACK, R421
  | preemptGo (pav : Nat) (pctx : BitVec 16)  -- PREEMPT_GO, R447
  | preemptResume (pav : Nat)  -- PREEMPT_RESUME, R447
  | engineStop (pav : Nat) (engine : EngineId)  -- ENGINE_STOP, R219
  | gangStop (pav : Nat)  -- GANG_STOP, R221
  | mapout (value : Word)  -- MAPOUT, R433
  | pairMapOut (pair : Nat)  -- PAIR_MAP_OUT, R433
  | featureAccept (value : BitVec 256)  -- FEATURE_ACCEPT, R453
  | errRecordFree (die n : Nat)  -- ERR_RECORD_FREE, R431
  | debugAttach (core : Nat) (ctx : BitVec 16)  -- DEBUG_ATTACH, R435
  | debugDetach (core : Nat)  -- DEBUG_DETACH, R435
  | debugHalt (core : Nat)  -- DEBUG_HALT, R438
  | debugRelease (core : Nat)  -- DEBUG_RELEASE, R438
  | debugStep (core slot : Nat)  -- DEBUG_STEP, R436
  | debugSave (core slot : Nat)  -- DEBUG_SAVE, R436
  | debugRestore (core slot : Nat)  -- DEBUG_RESTORE, R436
  | debugSkipBreakpoint (core slot : Nat)  -- DEBUG_SKIP_BREAKPOINT, R436
  | debugResume (core slot : Nat)  -- DEBUG_RESUME, R436
  | belvedereTick  -- BELVEDERE_TICK, R441
  | patrolScrub (place : EccPlace) (ecc : EccResult)  -- PATROL_SCRUB, R428
  | recordStart (die : Nat) (src : RecordSource)  -- RECORD_START, R402
  | gridRecordReceive (die grid : Nat)  -- GRID_RECORD_RECEIVE, R404
  | blockPlacement (die : Nat)  -- BLOCK_PLACEMENT, R404
  | stealMessage (die grid : Nat)  -- STEAL_MESSAGE, R405
  | stealReply (die : Nat)  -- STEAL_REPLY, R405
  | persistentGridAdmit (grid : Nat)  -- PERSISTENT_GRID_ADMIT, R406
  | gridTriggered (pav q : Nat)  -- GRID_TRIGGERED, R408
  | deqDeliver (pav q : Nat)  -- DEQ_DELIVER, R146
  | spawnAppend (wave : Nat)  -- SPAWN_APPEND, R144
  | waveEnd (wave : Nat)  -- WAVE_END, R139
  | blockComplete (block : Nat)  -- BLOCK_COMPLETE, R140
  | loadReturn (wave : Nat) (arrival : LineArrival)  -- LOAD_RETURN, R68
  | memoryPerform (agent idx : Nat) (hops : Sends)  -- MEMORY_PERFORM, R177
  | drPropagate (die : Nat)  -- DR_PROPAGATE, R191
  | logReplay (wave : Nat) (entry : Nat)  -- LOG_REPLAY, R213
  | trapDeliver (wave : Nat)  -- TRAP_DELIVER, R208
  | queryStart (core : Nat)  -- QUERY_START, R235
  | tlaunchEnqueue (wave : Nat)  -- TLAUNCH_ENQUEUE, R235
  | walkerWaitEnd (x : WalkerLine)  -- WALKER_WAIT_END, R230
  | sluicePost (walker : Nat)  -- SLUICE_POST, R242
  | copyChunk (core ch : Nat)  -- COPY_CHUNK, R293
  | transferRetire (core ch : Nat) (id : Word)  -- TRANSFER_RETIRE, R294
  | cpygoStart (wave : Nat)  -- CPYGO_START, R290
  | elementAccess (core : Nat)  -- ELEMENT_ACCESS, R298
  | collCombine  -- COLL_COMBINE, R300
  | matrixOwnershipGrant (pair block : Nat)  -- MATRIX_OWNERSHIP_GRANT, R306
  | matrixOpRetire (pair : Nat) (check : CheckResult)  -- MATRIX_OP_RETIRE, R331
  | acswapExchange (wave : Nat)  -- ACSWAP_EXCHANGE, R347
  | mxredxArrival (pair : Nat)  -- MXREDX_ARRIVAL, R354
  | feedbackLog (pav : Nat)  -- FEEDBACK_LOG, R379
  | primemitSend (wave : Nat)  -- PRIMEMIT_SEND, R390
  | triangleArrival (die : Nat)  -- TRIANGLE_ARRIVAL, R391
  | triangleCommit (die : Nat)  -- TRIANGLE_COMMIT, R393
  | tileSpill (die tile : Nat)  -- TILE_SPILL, R392
  | illegalInstructionWord (w : Word)  -- ILLEGAL_INSTRUCTION_WORD, R81
  | gtsIllegalWord (w : Word)  -- GTS_ILLEGAL_WORD, R255
  | corePowerGating (core : Nat)  -- CORE_POWER_GATING, R421
  | corePowerUngating (core : Nat)  -- CORE_POWER_UNGATING, R421
  deriving DecidableEq, Repr

end Sys2Proof
end

