-- ==== Sys2Proof/Machine/State.lean ====
section
/-! DEFINITION. The state of the K880, as plain data: waves, blocks, cores, walkers, copy channels, matrix units, the
distributors, the pavilions, the physical function and memory. The rule that names each piece is in its docstring; what
it holds at reset is the field's default value, and the assumption log names every default the spec does not give. -/

namespace Sys2Proof.Machine

/-! ### Small vocabulary -/

/-- The element types of R82, in code order. -/
inductive ETy where
  | n8 | s8 | n16 | s16 | n32 | s32 | n64 | s64 | f16 | bf16 | f32 | f64 | e4m3 | e5m2 | cb4 | b128
  deriving DecidableEq, Repr

/-- The trap causes of R85. -/
inductive Cause where
  | illegalOpcode | illegalOperand | illegalType | illegalMode | priv | accessViolation | align | windowCross
  | scratchBounds | shapeBudget | zcapOverrun | shapeAlign | fabricFault | poison | mxCheck | stackDepth | pairRole
  | trapInsn | breakpoint | step | watchpoint
  deriving DecidableEq, Repr

/-- A trap as R206 delivers it: its cause, the lanes and the address it reports; for `POISON`, the physical address of the
poisoned line (R430). -/
structure TrapInfo where
  cause : Cause
  lanes : Word
  addr : DWord
  line : Nat := 0
  deriving DecidableEq, Repr

/-! ### Accesses of partner memory (R423, R426) -/

/-- The operation of an atomic that leaves for the partner card: the instruction of R161 counted from `AADD` (0) to `ACAS`
(7), the element type's code, and SAT. -/
structure AtomicOp where
  op : BitVec 3 := 0
  ty : BitVec 4 := 4
  sat : Bool := false
  deriving DecidableEq, Repr

/-- One access of partner memory: its kind, the lane, row or piece it is for, its physical address and length, the virtual
address it came from, and what a store or an atomic sends. -/
structure Ask where
  kind : AccessKind
  tag : Nat
  pa : Nat
  len : Nat
  va : DWord
  /-- Bytes of the page whose cached translation it used; 0 for none (R421). -/
  page : Nat := 0
  data : List Byte := []
  /-- Bytes of `data` that are poisoned (R294, R427). -/
  bad : List Nat := []
  aop : AtomicOp := {}
  deriving DecidableEq, Repr

/-- An access that the partner card has answered, and its answer. -/
structure Answer where
  ask : Ask
  reply : FabricReply
  deriving DecidableEq, Repr

/-! ### A wave -/

/-- A register as its tag stores it (R45): U with its value, A with its 64-bit shape slot, G with its row of 32 lanes,
P with the stride of an affine pair. -/
inductive VReg where
  | u (x : Word)
  | a (slot : DWord)
  | g (row : Vector Word 32)
  | p (stride : Word)
  deriving DecidableEq, Repr

/-- One source of an operand-log record: the register, what it held, and the number of the retained row where a later
write has changed that row (R212, R216). -/
structure LogSource where
  reg : Reg
  val : VReg
  retained : Option Nat
  deriving DecidableEq, Repr

/-- Where the fault of a log entry stands (R213). -/
inductive LogState where
  | pending
  | resolved
  | unresolvable (cause : Cause)
  deriving DecidableEq, Repr

/-- An entry of the operand log (R210, R216). `past` counts the instructions after it that have retired (R213);
`holds` is set for an instruction that holds the issue point at itself while its entry is open (R210). -/
structure LogEntry where
  pc : DWord
  instr : Instr
  word : Word
  wm : Word
  lanes : Word
  exec : Word
  failLanes : Word
  sources : List LogSource
  faddr : DWord
  fltid : Option Nat
  state : LogState
  past : Nat
  holds : Bool
  /-- `WS.STEP` as the instruction found it: it is the one that is stepped (R218). -/
  step : Bool := false
  /-- The poisoned line that its replay met (R430). -/
  line : Nat := 0
  /-- The shadow sets of the wave as the instruction found them (R284). -/
  shadow : Vector DWord 32 := Vector.replicate 32 0
  /-- The requests of its replay at the partner card, and the answers so far (R426). -/
  fabric : Option Nat := none
  answers : List Answer := []
  deriving DecidableEq, Repr

/-- What the quad keeps of an interrupted wave beside its image: the fields that `RTE` does not take from the image
(R215, R216). -/
structure SavedWave where
  depth : Nat
  kinds : BitVec 64
  step : Bool
  priv : Bool
  log : List LogEntry
  deriving DecidableEq, Repr

/-- A load whose data has not arrived: its address, the registers it is owed to and the lines it reads (R62, R68). -/
structure OwedLoad where
  pc : DWord
  regs : List Reg
  lines : List Nat
  deriving DecidableEq, Repr

/-- Why a wave is not ready under R67, beyond its scoreboard. -/
inductive Wait where
  | none
  | barrier (n : BitVec 4)
  | phase | transfer | batch | tickets
  | item (pav q : Nat) (d : Reg)
  | spawnRoom (a : Pair) (b : Reg)
  | copyRoom (d : Reg) (ch : BitVec 2)
  | launchRoom (d : Reg) (a : Pair) (b : Reg)
  | range
  | owner (pair : Nat)
  | writers (mask : BitVec 8)
  | primRoom (a : Pair)
  | engines
  /-- A `FENCE` that sampler requests of other waves hold (R380). -/
  | sampling
  | fault (id : Nat)
  | fabric (group : Nat)
  /-- An instruction that the open entries hold (R207, R211). -/
  | log
  /-- An instruction whose write waits for a row that an open entry keeps (R212). -/
  | row
  /-- A wait that is over on a halted core: the instruction retires once the core runs again (R221, R438). -/
  | passed
  /-- An instruction whose fault needs an entry of a full log (R210). -/
  | logRoom (id : Nat)
  | halted
  | ending
  /-- Saved by a pre-emption that is not complete (R219, R220). -/
  | saved
  deriving DecidableEq, Repr

/-- Where the results of a replayed instruction go: the wave's registers as they now stand, and its other open entries
(R213). -/
structure ReplayHome where
  regs : Vector VReg 256
  log : List LogEntry
  deriving DecidableEq, Repr

/-- A wave (R42, R45, R53, R57 to R66, R205 to R218). -/
structure Wave where
  /-- A number no other wave of the run has: the agent its accesses are performed for. -/
  uid : Nat
  /-- The key of its block. -/
  block : Nat
  /-- `WAVEID` (R38). -/
  waveId : Nat
  /-- v0 to v255 with their tags (R45). -/
  regs : Vector VReg 256 := Vector.replicate 256 (.u 0)
  /-- p0 to p7; p0 is constant (R53). -/
  preds : Vector Word 8 := #v[0xFFFFFFFF, 0, 0, 0, 0, 0, 0, 0]
  exec : Word := 0xFFFFFFFF
  /-- Depth of the mask stack, 0 to 64 (R64). -/
  depth : Nat := 0
  /-- The entries held in hardware, newest first, at most 16: RESUME in [31:0], PENDING in [63:32] (R64, R65). -/
  masks : List DWord := []
  /-- The kind vector: bit k-1 is 1 for a LOOP entry at depth k (R64). -/
  kinds : BitVec 64 := 0
  wm : Word := 0
  /-- `WS`: STEP, PRIV, CAUSE, PAST (R59). LOGOPEN is the number of log entries. -/
  wsStep : Bool := false
  wsPriv : Bool
  wsCause : Byte := 0
  wsPast : Byte := 0
  /-- What the interrupted wave left while a handler runs, which is the handler-running bit (R209). -/
  handler : Option SavedWave := none
  /-- LOGOPEN as at the trap, beside the handler's own entries (R209). -/
  trapLog : Nat := 0
  lr : DWord := 0
  fp : DWord
  gbudget : Word
  rseed : Word
  trapCause : Byte := 0
  trapPc : DWord := 0
  trapLanes : Word := 0
  trapAddr : DWord := 0
  /-- The issue point (R205). -/
  pc : DWord
  /-- Shadow sets: register k of channel ch at 8 ch + k (R284). -/
  shadow : Vector DWord 32 := Vector.replicate 32 0
  /-- Open operand-log entries, oldest first, at most 4 (R210). -/
  log : List LogEntry := []
  /-- Loads whose data has not arrived, oldest first (R62). -/
  owed : List OwedLoad := []
  wait : Wait := .none
  /-- Order of admission to the quad, and YIELD's place in it (R67, R149). -/
  age : Nat
  /-- Consecutive cycles ready without issuing (R67). -/
  waited : Nat := 0
  /-- The step in which `YIELD` issued: the next one does not select the wave (R149). -/
  yielded : Option Nat := none
  /-- A trap held until every open log entry has replayed or become unresolvable (R207). -/
  heldTrap : Option TrapInfo := none
  /-- `MX_CHECK` owed at the next instruction: the batch (R335). -/
  mxCheck : Option Word := none
  /-- The next instruction passes check 1 once (R436). -/
  skipBreak : Bool := false
  /-- The lowest address of a watched access of the instruction in progress (R437). -/
  watchHit : Option DWord := none
  /-- The model's own: the instruction issued last has retired (R205). -/
  retired : Bool := false
  /-- Matrix operations of the open batch (R331, R342). -/
  openBatch : Nat := 0
  /-- STAGE and PRIO of the record that started it (R147). -/
  stage : Byte
  prio : BitVec 2
  /-- The partner card's answers to the accesses of the instruction at the issue point (R426). -/
  answers : List Answer := []
  /-- The model's own: set while an entry of the wave replays (R213). -/
  replay : Option ReplayHome := none
  /-- Registers whose row a double-bit error has poisoned (R428, R336). -/
  badRows : List Reg := []
  deriving DecidableEq, Repr

/-! ### A block -/

/-- A block's half on one core: its allocation, its block slot, and the counters the core keeps for it (R39, R41, R236,
R241, R286). -/
structure Half where
  core : Nat
  base : Nat
  blockSlot : Nat
  next : Vector Word 4 := Vector.replicate 4 1
  done : Vector Word 4 := Vector.replicate 4 1
  /-- Ids above DONE that have retired already (R287). -/
  retired : List (Nat × Word) := []
  /-- Launch and completion counts (R236). The spec gives no start value: DESIGN CHOICE 0 (assumption 3). -/
  launched : Word := 0
  completed : Word := 0
  /-- Entries of the Sluice posted and popped; the ring is in the allocation's last 4,096 bytes (R241). -/
  sluiceTail : Nat := 0
  sluiceHead : Nat := 0
  deriving DecidableEq, Repr

/-- A resident block (R36 to R43, R140, R150). -/
structure Block where
  pav : Nat
  ctx : Nat
  grid : Nat
  linear : Nat
  x : Nat
  y : Nat
  z : Nat
  gridDim : DWord
  stage : Byte
  paired : Bool
  /-- Wave keys of the block that have not ended, and how many waves it started with. -/
  alive : List Nat
  waves : Nat
  scratch : Nat
  /-- `CTXBASE` as the descriptor gave it at the admission (R60, R412, R450). -/
  ctxBase : DWord := 0
  halves : List Half
  /-- Waves arrived at each named barrier (R150). -/
  barriers : Vector (List Nat) 16 := Vector.replicate 16 []
  triggered : Bool := false
  /-- The record cache: index and 64 bytes (R330). -/
  records : List (Nat × Line) := []
  /-- The numbers of its waves, ended ones included: its stores are theirs (R408). -/
  agents : List Nat := []
  deriving DecidableEq, Repr

/-! ### Copy channels -/

/-- A started transfer (R284, R287, R288, R296). -/
structure Transfer where
  block : Nat
  uid : Nat
  core : Nat
  id : Word
  regs : Vector DWord 8
  doneBytes : Nat := 0
  rbase : DWord := 0
  ext0 : Word := 0
  ext1 : Word := 0
  rstride : Word := 0
  ret : Byte := 0
  publish : Bool := false
  /-- The bytes of its scratchpad destination, where it holds a range-scoreboard entry: first and last byte (R295). -/
  range : Option (Nat × Nat) := none
  fault : Option Nat := none
  fabric : Option Nat := none
  answers : List Answer := []
  deriving DecidableEq, Repr

/-- A gather, scatter or scatter-add element message under way (R298). -/
inductive ElementOp where
  | store (addr : Nat) (data : List Byte)
  | add (addr : Nat) (ty : ETy) (sat : Bool) (x : DWord)
  deriving DecidableEq, Repr

/-- A message of a core's network interface (R298). -/
structure ElementMsg where
  target : Nat
  block : Nat
  uid : Nat
  op : ElementOp
  deriving DecidableEq, Repr

/-- A collective contribution under way (R300): the page of the publish window (its frame, size and kind), the offset of
the first element in it, and the contributions of the active lanes by element number. -/
structure CollMsg where
  id : Nat
  core : Nat
  pav : Nat
  ctx : Nat
  block : Nat
  uid : Nat
  die : Nat
  va : DWord
  /-- As `Ask.page`: the cached translation that it uses (R421). -/
  page : Nat
  frame : Nat
  size : Nat
  ord : BitVec 2
  offset : Nat
  ty : ETy
  op : BitVec 2
  sat : Bool
  data : List (Nat × DWord)
  fabric : Option Nat := none
  answers : List Answer := []
  deriving DecidableEq, Repr

/-! ### The Millrace -/

/-- A walker program as the Millrace holds it while a query runs (R234, R239). -/
structure WalkerProgram where
  index : Nat
  code : DWord
  ndec : Nat
  hookCount : Word
  hookBase : DWord
  /-- The NDEC descriptors of 80 bytes (R239). -/
  decoders : List (List Byte)
  deriving DecidableEq, Repr

/-- An entry of the Sluice (R241, R244). -/
structure SluiceEntry where
  tag : Word
  status : Nat
  payload : DWord
  deriving DecidableEq, Repr

/-- What a walker waits for (R230). -/
inductive WalkerWait where
  | none
  | fault (id : Nat)
  | fabric (group : Nat)
  | post (e : SluiceEntry) (terminal : Bool) (f : Bool)
  /-- A `COVER` that the units of some dies have no room for (R247). -/
  | cover (dies : List Nat)
  /-- A hand-off that the link has not accepted (R273). -/
  | link
  /-- At the partner card, with the reference that `HANDOFF` named. -/
  | remote (ref : DWord)
  deriving DecidableEq, Repr

/-- What a walker has to read before its next step: the query record and the program, the program that gives the first word's
address, the program alone (after a hand-off or a resumption), or nothing (R233, R234, R248, R251). -/
inductive WalkerStart where
  | query | header | program | running
  deriving DecidableEq, Repr

/-- What a shipped query brings to the partner card: the copy of its record, the walker it came from, and the context it
runs in (R248). -/
structure Shipped where
  query : Line
  origin : Nat
  pav : Nat
  ctx : Nat
  deriving DecidableEq, Repr

/-- A walker that runs a query (R232, R251). -/
structure Walker where
  uid : Nat
  /-- Its block; a number that no block has for a shipped query. -/
  block : Nat
  /-- The order in which its query was launched (R242). -/
  launch : Nat
  w : Vector DWord 16
  f : Bool := false
  pc : DWord
  /-- The resident entries, lowest depth first, at most 16, and DEPTH (R232, R245). -/
  stack : List StackEntry := []
  depth : Nat := 0
  nodebuf : List Byte := []
  noderef : DWord := 0
  query : DWord
  tag : Word
  spill : DWord
  prog : WalkerProgram
  wait : WalkerWait := .none
  start : WalkerStart := .running
  /-- Primitives sent by `COVER` and not committed (R247). -/
  covers : Nat := 0
  waited : Nat := 0
  /-- The partner card's answers to the accesses of the step in progress (R463). -/
  answers : List Answer := []
  shipped : Option Shipped := none
  /-- Entries of a shipped stack that its first step finds in the spill area, lowest depth first (R248). -/
  arriving : List StackEntry := []
  /-- Its query ended while it was remote: what is left of it is its last entry (R249, R250). -/
  remoteOver : Bool := false
  /-- The fault that the write-back of its query record waits for (R248). -/
  faulted : Option Nat := none
  /-- A line that comes to its next step poisoned by a hop (R238, R427). -/
  struck : Option Nat := none
  deriving DecidableEq, Repr

/-- An entry of the launch FIFO (R235, R251). -/
structure LaunchEntry where
  query : DWord
  prog : Nat
  block : Nat
  /-- A hand-off message that arrived through the FIFO (R248). -/
  handoff : Option HandoffMsg := none
  deriving DecidableEq, Repr

/-! ### A core -/

/-- A core's debug module and trace encoder (R435, R439, R440, R221). -/
structure Debug where
  ctx : Nat := 0
  attached : Bool := false
  refused : Bool := false
  halt : Bool := false
  buf : DWord := 0
  /-- Breakpoint b: EN in [0], ADDR in [51:2] of the stored word. -/
  breaks : Vector DWord 8 := Vector.replicate 8 0
  watchAddr : Vector DWord 4 := Vector.replicate 4 0
  watchCtl : Vector DWord 4 := Vector.replicate 4 0
  gsClock : DWord := 0
  gsSent : DWord := 0
  gsRecv : DWord := 0
  gsValid : Bool := false
  traceBase : DWord := 0
  traceCtl : DWord := 0
  traceProd : Word := 0
  traceCons : Word := 0
  traceLost : Bool := false
  evcnt : Vector DWord 4 := Vector.replicate 4 0
  evsel : Vector DWord 4 := Vector.replicate 4 0
  deriving DecidableEq, Repr

/-- A logical core (R35, R230, R235, R284, R295, R379, R412, R421). -/
structure CoreState where
  heapBase : DWord := 0
  heapLimit : DWord := 0
  heapOffset : DWord := 0
  region : Vector DWord 8 := Vector.replicate 8 0
  chans : Vector (List Transfer) 4 := Vector.replicate 4 []
  fifo : List LaunchEntry := []
  walkers : Assoc Walker := []
  /-- Messages queued at the network interface (R298, R438). -/
  inbox : List ElementMsg := []
  sent : DWord := 0
  recv : DWord := 0
  dbg : Debug := {}
  gated : Bool := false
  gangHalt : Bool := false
  /-- The core's copy of the context whose block was admitted last (R412). -/
  ctx : Option (Nat × Nat) := none
  deriving DecidableEq, Repr

/-! ### The matrix unit -/

/-- A tile slot of one bank across both cores of the pair: its state (R311) and its elements, keyed row*128 + column, zero
elements unlisted, with the poisoned ones ascending; bit POISON is set while one is poisoned (R309, R336). -/
structure TileSlot where
  kind : BitVec 3 := 0
  evalid : Bool := false
  alignLoss : Bool := false
  sat : Bool := false
  e : BitVec 16 := 0
  elems : Assoc Word := []
  poison : List Nat := []
  deriving DecidableEq, Repr

/-- A bank of 8 tile slots (R309). -/
abbrev Bank := Vector TileSlot 8

/-- The threshold tile (R332, R333, R356): cells by tree*64 + node, bits [97:0] of R333, zero cells unlisted. -/
structure TilePlane where
  ty : ETy := .f32
  mode : BitVec 1 := 0
  map : Vector Byte 64 := Vector.replicate 64 0
  cells : Assoc (BitVec 98) := []
  poisoned : Bool := false
  deriving DecidableEq, Repr

/-- Where an operand's bytes are (R312): a scratchpad from a memory key on with pitches in bytes and a rotation (R313), the
rows of registers as the array reads them, those at `bad` poisoned (R314, R336), or a record's elements and scale bytes at memory
keys (R315, R323). -/
inductive MxSource where
  | scratch (key rp tp rot : Nat)
  | regs (rows : List (Vector Word 32)) (bad : List Nat)
  | record (key scaleKey : Nat) (r : Line)
  deriving DecidableEq, Repr

/-- An operand of `MMA` or `MMAP`. -/
structure MxOperand where
  src : MxSource
  ty : ETy
  deriving DecidableEq, Repr

/-- The operations of a matrix unit, each with the operands it took at issue (R307, R340). -/
inductive MxKind where
  | mma (slot : Slot) (k : Nat) (a b : MxOperand) (sat : Bool)
  | drain (slot : Slot) (record : Line) (row0 col0 : Nat) (wm seed : Word)
  | taload (addr : DWord) (ty : ETy) (mode : BitVec 1)
  | taeval (slot : Slot) (key stride count : Nat)
  | cbload (cb : BitVec 2) (data : Vector (BitVec 16) 16)
  | acst (slot : Slot) (kind : BitVec 3) (words : List (Nat × Word))
  | zero (mask : BitVec 8)
  | sacc (dst src : Slot) (scale : Word)
  | redx (slot : Slot) (target : Nat) (tslot : Slot) (exp : BitVec 16)
  deriving DecidableEq, Repr

/-- An issued matrix operation that has not retired (R331). `batch` is the closed batch that holds it. -/
structure MxOp where
  id : Nat
  block : Nat
  uid : Nat
  core : Nat
  kind : MxKind
  joins : Bool
  batch : Option Word := none
  fault : Option Nat := none
  fabric : Option Nat := none
  answers : List Answer := []
  deriving DecidableEq, Repr

/-- A reduction message under way to a pair (R354): the sending pair, operation and context, and the tile. -/
structure RedxMsg where
  pair : Nat
  op : Nat
  pav : Nat
  ctx : Nat
  slot : Slot
  exp : BitVec 16
  elems : Assoc Word
  poison : List Nat
  deriving DecidableEq, Repr

/-- What wrote working slots of a unit: an operation, or the arrival of a reduction message. -/
inductive MxWrite where
  | op (o : MxOp)
  | arrival (m : RedxMsg)
  deriving DecidableEq, Repr

/-- A write that the unit may have to make again for a batch that has not retired (R335): what it found, and the slots that it
wrote and no `ACSWAP` has exchanged since. -/
structure MxPast where
  write : MxWrite
  working : Bank
  visible : Bank
  codebooks : Vector (Vector (BitVec 16) 16) 4
  tile : TilePlane
  slots : BitVec 8
  /-- Its batch has been executed again. -/
  again : Bool := false
  deriving DecidableEq, Repr

/-- A pair's matrix unit (R305 to R339). `sent` holds its reductions whose message is under way, `past` the writes of working
slots since the oldest batch that has not retired, oldest first. -/
structure MatrixUnit where
  owner : Option Nat := none
  working : Bank := Vector.replicate 8 {}
  visible : Bank := Vector.replicate 8 {}
  codebooks : Vector (Vector (BitVec 16) 16) 4 := Vector.replicate 4 (Vector.replicate 16 0)
  tile : TilePlane := {}
  batchNext : Word := 1
  /-- The batch that retired last. -/
  batchDone : Word := 0
  ops : List MxOp := []
  sent : List MxOp := []
  redx : List RedxMsg := []
  past : List MxPast := []
  deriving DecidableEq, Repr

/-! ### The distributors -/

/-- A record of a resume list (R147, R148, R401). `carried` holds the values of a pre-empted DEQ: budget, allocation,
privilege. -/
structure ResumeEntry where
  record : Line
  pav : Nat
  ctx : Nat
  byPriv : Bool
  carried : Option (Nat × Nat × Bool)
  fault : Option Nat := none
  fabric : Option Nat := none
  answers : List Answer := []
  deriving DecidableEq, Repr

/-- A started record: a grid, or a single block counted as a 1 x 1 x 1 grid (R43, R403, R404, R408). -/
structure Grid where
  pav : Nat
  ctx : Nat
  queue : Option Nat
  /-- The die whose distributor took it. -/
  home : Nat
  cls : Nat
  record : Line
  isGrid : Bool
  x : Nat
  y : Nat
  z : Nat
  budget : Nat
  scratch : Nat
  priv : Bool
  waves : Nat
  paired : Bool
  persistent : Bool
  /-- Unplaced blocks of each die, ascending (R404). -/
  unplaced : Vector (List Nat) 2
  /-- Whether die d holds its share (R404). -/
  received : Vector Bool 2
  admitted : Bool := false
  stealOut : Vector Bool 2 := Vector.replicate 2 false
  stealDone : Vector Bool 2 := Vector.replicate 2 false
  placed : Nat := 0
  /-- Blocks that have executed TRIG or ended, and blocks that have completed (R408). -/
  trigged : Nat := 0
  complete : Nat := 0
  /-- Memory as the record was launched, which fetches and loads under the read-only hint may still see (R72, R84). -/
  memory : Memory := []
  /-- The words that the context has stored to since (R72). -/
  stored : List Nat := []
  deriving DecidableEq, Repr

/-- One die's distributor (R401 to R405). -/
structure Distributor where
  resume : Vector (List ResumeEntry) 4 := Vector.replicate 4 []
  lastCore : Nat := 111
  /-- Steal replies under way: grid and block indices (R405). -/
  replies : List (Nat × List Nat) := []
  /-- Weighted round robin of each class: the source visited last (0 for the resume list, 1 + pav*256 + q for a queue) and
  the starts left; the resume list is visited first (R401). -/
  visit : Vector (Nat × Nat) 4 := Vector.replicate 4 (0, 16)
  deriving DecidableEq, Repr

/-- A queue's status block and what the hardware keeps beside it (R397, R398, R146, R408). -/
structure QueueState where
  head : Word := 0
  tail : Word := 0
  dropped : Word := 0
  err : Byte := 0
  errcnt : Word := 0
  /-- KIND when ENABLE was last cleared (R397). -/
  lastKind : Option Bool := none
  /-- Waves blocked in DEQ, longest-waiting first (R146). -/
  waiting : List Nat := []
  /-- The grid the queue started last (R408), and the one whose blocks are being placed (R401). -/
  predecessor : Option Nat := none
  current : Option Nat := none
  fault : Option Nat := none
  fabric : Option Nat := none
  answers : List Answer := []
  deriving DecidableEq, Repr

/-! ### The coverage unit -/

/-- A triangle on its way to or in one die's coverage unit (R390, R391): its context, its stream and order token, the
query that waits for it, the view, the primitive id, and the transformed vertices, three words each. -/
structure Triangle where
  pav : Nat
  ctx : Nat
  core : Nat
  stream : Nat
  token : Nat
  query : Option Nat
  view : DWord
  viewRec : Line
  prim : Word
  verts : List Word
  /-- Tiles of the unit's die that it is resolved in already (R392). -/
  resolved : List Nat := []
  fault : Option Nat := none
  fabric : Option Nat := none
  answers : List Answer := []
  deriving DecidableEq, Repr

/-- A sample that the tile store holds: its tile, its place, its depth in [31:0] and its id in [63:32] (R388, R393). -/
structure Sample where
  pav : Nat
  ctx : Nat
  tile : Nat
  value : DWord
  /-- The address it is for, and the page whose cached translation it uses, as `Ask.page` (R421). -/
  va : DWord
  page : Nat
  /-- ORD and PUB of its page: where its bytes go is found as they are written (R191, R302). -/
  ord : BitVec 2
  pub : Bool
  deriving DecidableEq, Repr

/-- One die's coverage unit (R391 to R393): triangles sent and not arrived, triangles that wait for their tiles or for an
earlier token, the next token of each stream to be sent and to be committed, and the tile store by memory key. -/
structure CoverageUnit where
  input : List Triangle := []
  binned : List Triangle := []
  nextSend : Assoc Nat := []
  nextCommit : Assoc Nat := []
  store : Assoc Sample := []
  deriving DecidableEq, Repr

/-! ### The pavilions -/

/-- Who waits for a fault (R419); `sampler` and `gather` are waves whose instruction those units execute. -/
inductive FaultUnit where
  | wave (k : Nat) | sampler (k : Nat) | gather (k : Nat) | walker (k : Nat) | copy (core ch : Nat) | matrix (pair : Nat)
  | coll (id : Nat) | coverage (die : Nat)
  | queue (pav q : Nat) | resume (die cls : Nat) | ingress (id : Nat)
  deriving DecidableEq, Repr

/-- A pending fault (R419). -/
structure PendingFault where
  id : Nat
  va : DWord
  kind : AccessKind
  unit : FaultUnit
  core : Nat
  ctx : Nat
  lanes : Word
  /-- The record is in the ring. -/
  posted : Bool := false
  deriving DecidableEq, Repr

/-- A block that a pre-emption stopped, until it resumes: its waves as they were saved, by slot, and for each half the
cells of its allocation and its poisoned lines, as offsets (R220). -/
structure SavedBlock where
  key : Nat
  cls : Nat
  block : Block
  waves : List (Nat × Wave)
  scratch : List (List Host.Cell × List Nat)
  deriving DecidableEq, Repr

/-- Engine work that a pre-emption stopped, as the engines' save areas hold it: walkers by their key, launch FIFO entries
by core, transfers by core and channel, matrix units by pair, triangles by die (R250, R296, R338, R394). -/
structure SavedWork where
  walkers : List (Nat × Walker) := []
  fifo : List (Nat × LaunchEntry) := []
  transfers : List (Nat × Nat × Transfer) := []
  units : List (Nat × MatrixUnit) := []
  triangles : List (Nat × Triangle) := []
  deriving DecidableEq, Repr

/-- A pavilion's control block and collector (R447, R219, R420). -/
structure Pavilion where
  desc : Assoc Line := []
  queues : Assoc QueueState := []
  fbring : DWord := 0
  fltring : DWord := 0
  sdAddr : DWord := 0
  sdSize : DWord := 0
  sdCtx : BitVec 16 := 0
  sdBusy : Bool := false
  sdOwed : List ShootUnit := []
  evring : DWord := 0
  ctxtab : DWord := 0
  ctxcount : BitVec 16 := 0
  pctx : BitVec 16 := 0
  /-- The value of PCTX that the latest GO named (R447). -/
  goCtx : BitVec 16 := 0
  busy : Bool := false
  saved : Bool := false
  stopOwed : List EngineId := []
  savedBlocks : List SavedBlock := []
  savedWork : SavedWork := {}
  /-- The values of PCTX whose pre-emption is complete and not resumed (R219, R447). -/
  savedCtxs : List (BitVec 16) := []
  faults : List PendingFault := []
  deriving DecidableEq, Repr

/-- What the device has latched of a context (R450). -/
structure CtxState where
  debuggable : Bool
  drmap : Bool
  fabkey : Word
  deriving DecidableEq, Repr

/-! ### The physical function -/

/-- The registers of PF BAR0 (R446). -/
structure PhysFn where
  ready : BitVec 64 := 0
  readyErr : BitVec 64 := 0
  devfeat : BitVec 256 := 0x3F
  drvfeat : BitVec 256 := 0
  locked : Bool := false
  featErr : Bool := false
  vfmap : Assoc Byte := []
  mapout : BitVec 7 := 0
  mapoutBusy : Bool := false
  /-- Pavilions that the mapping-out in progress has pre-empted and not resumed, and the logical pairs that it has bound
anew (R433). -/
  mapoutPavs : List Nat := []
  mapoutMoved : List Nat := []
  /-- Pairs that R428 has marked failed and that are not mapped out yet. -/
  marked : List Nat := []
  scrubPeriod : Byte := 24
  bvctl : BitVec 6 := 0
  bvring : DWord := 0
  impcount : BitVec 13 := 0
  ingValid : Bool := false
  ingCause : BitVec 3 := 0
  ingIndex : BitVec 12 := 0
  ingCtx : BitVec 16 := 0
  ingCount : Word := 0
  ingAddr : DWord := 0
  pfevring : DWord := 0
  ualen : Bool := false
  ualup : Bool := false
  loss : Bool := false
  power : BitVec 16 := 0
  drallow : BitVec 16 := 0
  imports : Assoc Byte := []
  fwmbox : Assoc Byte := []
  /-- Flash slots A and B (R455). The spec gives no content: DESIGN CHOICE empty (assumption 3). -/
  flashA : List Byte := []
  flashB : List Byte := []
  firmware : List Byte := []
  deriving DecidableEq, Repr

/-! ### The sampler's logs (R378, R379) -/

/-- A lookup log: resource, wanted level, tile, resolved level, and the byte that holds the tile's residency bit. -/
structure LookupLog where
  core : Nat
  pav : Nat
  ctx : Nat
  resid : Word
  wanted : Nat
  tx : Nat
  ty : Nat
  level : Nat
  bitKey : Nat
  deriving DecidableEq, Repr

/-! ### Fabric and outputs -/

/-- A request to the partner card that has no answer yet (R423, R426). The accesses of one instruction or step leave
together, as one group. -/
structure FabricReq where
  id : Nat
  group : Nat
  unit : FaultUnit
  /-- The core, or the first core of the die, and the context that it is for (R421). -/
  core : Nat
  ctx : Nat
  ask : Ask
  key : Word
  deriving DecidableEq, Repr

/-- A request of the partner card accepted at the ingress and not completed (R424). -/
structure IngressPending where
  id : Nat
  req : IngressReq
  pav : Nat
  ctx : Nat
  va : DWord
  fault : Option Nat
  deriving DecidableEq, Repr

/-- An SPDM MEASUREMENTS response (R456): the digests of the firmware, DEVFEAT and DRVFEAT, that of each pavilion, and the two
signatures. -/
structure SpdmResponse where
  firmware : List Byte
  devfeat : List Byte
  drvfeat : List Byte
  debuggable : List (List Byte)
  opaqueData : List Byte
  signature : List Byte
  deriving DecidableEq, Repr

/-- What leaves the device, oldest first. -/
inductive OutMsg where
  | fabricAccess (l : List FabricReq)
  | ingressData (id : Nat) (data : List Byte) (poisoned : Bool)
  | ingressFault (id : Nat)
  | hostData (addr : Nat) (data : List Byte) (poisoned : Bool)
  | snoopData (line : Nat) (data : List Byte)
  | spdm (r : SpdmResponse)
  | handoff (m : HandoffMsg)
  /-- The import checks refuse the hand-off of a query of the partner card (R249). -/
  | handoffRefused (origin : Nat)
  | remoteEntry (origin : Nat) (e : SluiceEntry) (query : Line)
  /-- MSI-X vector 0 of a virtual function, or of the physical one (R454). -/
  | msix (vf : Option Nat)
  | cxlFatal
  deriving DecidableEq, Repr

/-- A store issued and not yet performed at its home (R177, R178): the agent with its core and context, the cells, whether
the page is UO or DR and which die wrote it, and whether a release at block scope has followed it (R184, R185). -/
structure PendingStore where
  agent : Nat
  core : Nat
  ctx : Nat
  cells : List Host.Cell
  unordered : Bool
  replicated : Option Nat
  va : DWord
  /-- As `Ask.page`. -/
  page : Nat := 0
  released : Bool := false
  deriving DecidableEq, Repr

/-- A line that a core's L1 holds: a copy that stores of other cores leave as it is (R178). -/
structure L1Line where
  core : Nat
  line : Nat
  bytes : List Byte
  deriving DecidableEq, Repr

/-- The agent of a step. -/
inductive Move where
  | wave (k : Nat)
  | walker (k : Nat)
  | event (e : Instr)
  deriving DecidableEq, Repr

/-! ### The machine -/

/-- The whole device. Waves are keyed core*32 + slot, walkers core*64 + number, blocks and grids by a number of their
own, contexts pavilion*65536 + number, queues by number within their pavilion. -/
structure State where
  waves : Assoc Wave := []
  blocks : Assoc Block := []
  cores : Assoc CoreState := []
  units : Assoc MatrixUnit := []
  pavs : Assoc Pavilion := []
  ctxs : Assoc CtxState := []
  grids : Assoc Grid := []
  dists : Vector Distributor 2 := Vector.replicate 2 {}
  coverage : Vector CoverageUnit 2 := Vector.replicate 2 {}
  /-- The duplicate filters of the cores, newest first, at most 32 a core, and the logs that passed and have not reached
  their ring, oldest first (R379). -/
  filters : List LookupLog := []
  logs : List LookupLog := []
  pf : PhysFn := {}
  /-- Error banks of the two dies: 64 records of 256 bits each, keyed die*64 + n, and ERRSTAT (R431, R432). -/
  errors : Assoc (BitVec 256) := []
  errstat : Vector DWord 2 := Vector.replicate 2 0
  mem : Memory := []
  /-- Stores issued and not performed at their homes, oldest first (R177). -/
  stores : List PendingStore := []
  /-- What the cores' L1 caches hold of pages that they serve (R178, R179). -/
  l1 : List L1Line := []
  /-- DR stores performed at the writer's replica and not at the other: the writer's die and the cells (R191). -/
  drQueue : List (Nat × List Host.Cell) := []
  /-- Poisoned lines: physical address / 64 (R429). -/
  poisoned : List Nat := []
  /-- First physical addresses of the publish windows whose SEL is 1 (R301). -/
  sel : List Nat := []
  colls : List CollMsg := []
  /-- Logical pair to hosting physical pair, where it is not itself; none for an unbound pair (R433). -/
  hosts : Assoc (Option Nat) := []
  /-- The logical pair whose unit a hosting physical pair has loaded, where it is not its own (R339). -/
  loaded : Assoc Nat := []
  failed : List Nat := []
  fabric : List FabricReq := []
  ingress : List IngressPending := []
  /-- Remote queries that have ended here, each with its pavilion and context (R249, R424). -/
  ended : List (Nat × Nat × Nat) := []
  out : List OutMsg := []
  /-- `CLOCK` and `TIME` (R60, R61), both 0 at device reset. -/
  clock : DWord := 0
  time : DWord := 0
  /-- Arithmetic clock in MHz (R5, R458). -/
  mhz : Nat := 1500
  thermal : Bool := false
  /-- Slots whose wave has ended, with its block and the address of its `EXIT`, until the slot is reused or the block completes
  (R442). -/
  exited : Assoc (Nat × DWord) := []
  /-- `CLOCK` has passed a multiple of 2^N, and the cores have not latched their snapshots of that tick yet (R441). -/
  tickDue : Bool := false
  /-- The step that issued a wave instruction last, its wave and its address (R442). -/
  issued : Nat × Nat × DWord := (0, 0, 0)
  /-- The model's own: the moves to come, the steps made so far, the agents exec acts on, and the counter of fresh numbers
  (assumptions 1 and 4). -/
  agenda : List Move := []
  steps : Nat := 0
  cur : Nat := 0
  curWalker : Nat := 0
  fresh : Nat := 0
  deriving DecidableEq, Repr

/-- The machine right after reset: nothing runs, every register at its reset value, memory with nothing listed
(R451, R446, R447). -/
def State.reset : State := {}

/-! ### Stops of the model -/

/-- Faults of the model. -/
inductive Fault where
  /-- Raised by a meaning of a wave instruction when no wave is in the slot that `State.cur` names: no hardware has that
  step. Safe: the model stops. -/
  | noWave
  /-- Raised by a meaning of a walker instruction when no query runs on the walker that `State.curWalker` names: no
  hardware has that step. Safe: the model stops. -/
  | noWalker
  deriving DecidableEq, Repr

/-- Refusals of the model. -/
inductive Refusal where
  /-- Raised by an arm of exec that has no meaning yet. Safe: the model stops. -/
  | notModelled (mnemonic : String)
  deriving DecidableEq, Repr

end Sys2Proof.Machine
end

