-- ==== Sys2Proof/Machine/Fp.lean ====
section
/-! DEFINITION. The float formats (R82, R121), exact reals, `RoundTo` (R32, R83, R121), and the exact or high-precision
values that the float instructions round. -/

namespace Sys2Proof.Machine

/-- A float format: exponent and fraction bits. e4m3 has no infinities, and its top pattern is its only NaN (R129). -/
structure Fmt where
  ebits : Nat
  mbits : Nat
  infs : Bool
  deriving DecidableEq, Repr

/-- The format of a float type. -/
def ETy.fmt : ETy → Fmt
  | .f16 => ⟨5, 10, true⟩
  | .bf16 => ⟨8, 7, true⟩
  | .f64 => ⟨11, 52, true⟩
  | .e4m3 => ⟨4, 3, false⟩
  | .e5m2 => ⟨5, 2, true⟩
  | _ => ⟨8, 23, true⟩

/-- Width in bits. -/
def Fmt.width (m : Fmt) : Nat := m.ebits + m.mbits + 1
/-- Exponent bias. -/
def Fmt.bias (m : Fmt) : Nat := 2 ^ (m.ebits - 1) - 1
/-- Exponent of the last place of a subnormal. -/
def Fmt.qmin (m : Fmt) : Int := 1 - (m.bias : Int) - (m.mbits : Int)
/-- The pattern of the largest finite value, sign clear. -/
def Fmt.maxPat (m : Fmt) : Nat :=
  if m.infs then (2 ^ m.ebits - 1) * 2 ^ m.mbits - 1 else 2 ^ (m.ebits + m.mbits) - 2
/-- The pattern of +∞; for a format without infinities, of its NaN. -/
def Fmt.infPat (m : Fmt) : Nat := m.maxPat + 1
/-- The sign bit. -/
def Fmt.signPat (m : Fmt) (neg : Bool) : Nat := if neg then 2 ^ (m.ebits + m.mbits) else 0
/-- The canonical quiet NaN (R121, R129). -/
def Fmt.canon (m : Fmt) : Nat :=
  if m.infs then (2 ^ m.ebits - 1) * 2 ^ m.mbits + 2 ^ (m.mbits - 1) else 2 ^ (m.ebits + m.mbits) - 1

/-- A float operand: NaN, ±∞, or ±mant × 2^exp; mant is 0 for ±0. -/
inductive FVal where
  | nan
  | inf (neg : Bool)
  | num (neg : Bool) (mant : Nat) (exp : Int)
  deriving DecidableEq, Repr

/-- The value of a pattern. -/
def Fmt.decode (m : Fmt) (bits : Nat) : FVal :=
  let x := bits % 2 ^ m.width
  let neg := decide (2 ^ (m.ebits + m.mbits) ≤ x)
  let y := x % 2 ^ (m.ebits + m.mbits)
  let e := y / 2 ^ m.mbits
  let f := y % 2 ^ m.mbits
  if m.infPat < y ∨ (!m.infs ∧ y = m.infPat) then .nan
  else if y = m.infPat then .inf neg
  else if e = 0 then .num neg f m.qmin
  else .num neg (2 ^ m.mbits + f) (m.qmin + (e : Int) - 1)

/-- A NaN pattern whose quiet bit is clear (R127); e4m3's only NaN counts as quiet. -/
def Fmt.signalling (m : Fmt) (bits : Nat) : Bool :=
  decide (m.decode bits = .nan) && m.infs && decide (bits / 2 ^ (m.mbits - 1) % 2 = 0)

/-- An exact result: invalid or NaN, ±∞, a signed zero, or ±(num / den) × 2^exp, not zero. -/
inductive Exact where
  | nan
  | inf (neg : Bool)
  | zero (neg : Bool)
  | real (neg : Bool) (num den : Nat) (exp : Int)
  deriving DecidableEq, Repr

/-- An operand as an exact result. -/
def FVal.exact : FVal → Exact
  | .nan => .nan
  | .inf n => .inf n
  | .num n m e => if m = 0 then .zero n else .real n m 1 e

/-- 2^k for an integer k, as numerator and denominator. -/
def scale2 (num den : Nat) (k : Int) : Nat × Nat :=
  if 0 ≤ k then (num * 2 ^ k.toNat, den) else (num, den * 2 ^ (-k).toNat)

/-- floor(log2(num / den)), for positive operands. -/
def floorLog (num den : Nat) : Int :=
  let l : Int := (Nat.log2 num : Int) - (Nat.log2 den : Int)
  let s := scale2 den 1 l
  if num * s.2 < s.1 then l - 1 else l

/-- The rounding modes of R83 on the quotient `n / d`, whose integer part is even or odd by `m`. -/
def roundsUp (rm : BitVec 3) (rand : Nat) (neg : Bool) (m r d : Nat) : Bool :=
  match rm.toNat with
  | 0 => decide (d < 2 * r) || (decide (2 * r = d) && decide (m % 2 = 1))
  | 1 => false
  | 2 => neg && decide (r ≠ 0)
  | 3 => !neg && decide (r ≠ 0)
  | 4 => decide (d ≤ 2 * r)
  | _ => decide (rand < r * 65536 / d)

/-- The magnitude pattern of num/den × 2^exp rounded with an unbounded exponent: past `infPat` where it overflows. -/
def Fmt.roundMag (m : Fmt) (rm : BitVec 3) (rand : Nat) (neg : Bool) (num den : Nat) (exp : Int) : Nat :=
  let e := floorLog num den + exp
  let q := if e - (m.mbits : Int) < m.qmin then m.qmin else e - (m.mbits : Int)
  let nd := scale2 num den (exp - q)
  let i := nd.1 / nd.2
  let r := nd.1 % nd.2
  (q - m.qmin).toNat * 2 ^ m.mbits + i + (if roundsUp rm rand neg i r nd.2 then 1 else 0)

/-- The pattern of an overflow by rounding mode (R121). -/
def Fmt.overflow (m : Fmt) (rm : BitVec 3) (neg : Bool) : Nat :=
  match rm.toNat with
  | 1 => m.maxPat
  | 2 => if neg then m.infPat else m.maxPat
  | 3 => if neg then m.maxPat else m.infPat
  | _ => m.infPat

/-- `RoundTo(x, t, rm)` of R32; `rand` is the 16 random bits of R83. -/
def Fmt.round (m : Fmt) (rm : BitVec 3) (rand : Nat) (x : Exact) : Nat :=
  match x with
  | .nan => m.canon
  | .inf n => m.signPat n + m.infPat
  | .zero n => m.signPat n
  | .real n num den exp =>
    let p := m.roundMag rm rand n num den exp
    m.signPat n + (if m.maxPat < p then m.overflow rm n else p)

/-! ### Exact arithmetic -/

/-- Signed integer of a sign and a magnitude. -/
def signed (neg : Bool) (m : Nat) : Int := if neg then -(m : Int) else (m : Int)

/-- The exact sum of finite addends, each ±mant × 2^exp, as an integer times 2^e with e the least exponent. -/
def sumDyadic (l : List (Int × Int)) : Int × Int :=
  let e := l.foldl (fun a x => if x.2 < a then x.2 else a) ((l.head?.map fun x => x.2).getD 0)
  (l.foldl (fun a x => a + x.1 * 2 ^ (x.2 - e).toNat) 0, e)

/-- An exact integer times 2^e; `zneg` is the sign of a zero. -/
def ofDyadic (x : Int × Int) (zneg : Bool) : Exact :=
  if x.1 = 0 then .zero zneg else .real (decide (x.1 < 0)) x.1.natAbs 1 x.2

/-- Product of two operands (R122): 0 × ∞ is invalid. -/
def mulF : FVal → FVal → FVal
  | .nan, _ => .nan
  | _, .nan => .nan
  | .inf n, .inf k => .inf (n != k)
  | .inf n, .num k m _ => if m = 0 then .nan else .inf (n != k)
  | .num n m _, .inf k => if m = 0 then .nan else .inf (n != k)
  | .num n m e, .num k m' e' => .num (n != k) (m * m') (e + e')

/-- Exact sum of addends (R122, R128): a NaN or opposite infinities are invalid; an exact zero takes the common sign of
its addends, else + except under RDN (R121). -/
def sumF (rm : BitVec 3) (l : List FVal) : Exact :=
  let infs := l.filterMap fun x => match x with | .inf n => some n | _ => none
  let signs := l.filterMap fun x => match x with | .num n _ _ => some n | _ => none
  if l.any fun x => x == .nan then .nan
  else match infs with
    | n :: t => if t.all fun k => k == n then .inf n else .nan
    | [] =>
      let zneg := if signs.all fun n => n then true else if signs.all fun n => !n then false else rm == 2#3
      ofDyadic (sumDyadic (l.filterMap fun x => match x with | .num n m e => some (signed n m, e) | _ => none)) zneg

/-- Negate an operand. -/
def negF : FVal → FVal
  | .nan => .nan
  | .inf n => .inf (!n)
  | .num n m e => .num (!n) m e

/-- Exact quotient (R122). -/
def divF : FVal → FVal → Exact
  | .nan, _ => .nan
  | _, .nan => .nan
  | .inf _, .inf _ => .nan
  | .inf n, .num k _ _ => .inf (n != k)
  | .num n _ _, .inf k => .zero (n != k)
  | .num n m e, .num k m' e' =>
    if m' = 0 then (if m = 0 then .nan else .inf (n != k))
    else if m = 0 then .zero (n != k)
    else .real (n != k) m m' (e - e')

/-- Compare two finite or infinite values as reals: -1, 0 or 1; -0 equals +0. None with a NaN. -/
def cmpF : FVal → FVal → Option Int
  | .nan, _ => none
  | _, .nan => none
  | .inf n, .inf k => some (if n = k then 0 else if n then -1 else 1)
  | .inf n, .num _ _ _ => some (if n then -1 else 1)
  | .num _ _ _, .inf k => some (if k then 1 else -1)
  | .num n m e, .num k m' e' =>
    let d := (sumDyadic [(signed n m, e), (-(signed k m'), e')]).1
    some (if d < 0 then -1 else if d = 0 then 0 else 1)

/-- A negative sign, zeros included. -/
def FVal.neg : FVal → Bool
  | .nan => false
  | .inf n => n
  | .num n _ _ => n

/-- a is below b, with -0 below +0 (R123). -/
def lessF (a b : FVal) : Bool :=
  match cmpF a b with
  | some c => if c = 0 then a.neg && !b.neg else decide (c < 0)
  | none => false

/-! ### Square roots -/

/-- floor of the square root, bit by bit from bit `k - 1` down. -/
def isqrt (n : Nat) : Nat → Nat → Nat
  | 0, acc => acc
  | k + 1, acc =>
    let t := acc + 2 ^ k
    isqrt n k (if t * t ≤ n then t else acc)

/-- A value known to lie at `x`, or strictly between `x` and `x + 1`, times 2^e: halves mark the open interval, which no
rounding decision of a shorter format can tell apart. -/
def sticky (neg : Bool) (x : Nat) (isExact : Bool) (e : Int) : Exact :=
  .real neg (2 * x + (if isExact then 0 else 1)) 1 (e - 1)

/-- Square root of m × 2^e, m > 0 (R124). -/
def sqrtExact (m : Nat) (e : Int) : Exact :=
  let e' := if e % 2 = 0 then e else e - 1
  let m' := if e % 2 = 0 then m else 2 * m
  let n := m' * 2 ^ 200
  let s := isqrt n 140 0
  sticky false s (decide (s * s = n)) (e' / 2 - 100)

/-- Reciprocal square root of m × 2^e, m > 0 (R124). -/
def rsqrtExact (m : Nat) (e : Int) : Exact :=
  let e' := if e % 2 = 0 then e else e - 1
  let m' := if e % 2 = 0 then m else 2 * m
  let s := isqrt (2 ^ 250 / m') 126 0
  sticky false s (decide (s * s * m' = 2 ^ 250)) (-(e' / 2) - 125)

/-! ### The transcendental functions (R125)

Each irrational value is computed in fixed point to far more places than any boundary of a 24-bit format needs to be told
from it (assumption 17), and rounded once. -/

/-- Places of the fixed point. -/
def places : Nat := 250

/-- Sum of 1 / (k × 2^k) for k from 1 to n: ln 2 in fixed point. -/
def ln2Sum : Nat → Nat
  | 0 => 0
  | k + 1 => ln2Sum k + 2 ^ places / ((k + 1) * 2 ^ (k + 1))

/-- arctan(1/x) in fixed point: terms k from n down. -/
def atanSum (x : Nat) : Nat → Int
  | 0 => 0
  | k + 1 =>
    let t : Int := (2 ^ places / ((2 * k + 1) * x ^ (2 * k + 1)) : Nat)
    atanSum x k + (if k % 2 = 0 then t else -t)

/-- π in fixed point, by Machin's formula. -/
def piFix : Nat := (16 * atanSum 5 54 - 4 * atanSum 239 17).toNat

/-- Taylor terms of the exponential at a fixed-point argument: term k of n, the running power over factorial. -/
def expSum (t : Nat) : Nat → Nat → Nat → Nat → Nat
  | 0, _, _, acc => acc
  | n + 1, k, term, acc =>
    let term' := term * t / 2 ^ places / (k + 1)
    expSum t n (k + 1) term' (acc + term')

/-- 2^f for f in [0, 1) in fixed point. -/
def exp2Fix (f : Nat) : Nat := expSum (f * ln2Sum 250 / 2 ^ places) 60 0 (2 ^ places) (2 ^ places)

/-- Taylor terms of the sine at a fixed-point argument: `sq` is its square, terms alternate. -/
def sinSum (sq : Nat) : Nat → Nat → Nat → Bool → Int → Int
  | 0, _, _, _, acc => acc
  | n + 1, k, term, plus, acc =>
    let term' := term * sq / 2 ^ places / ((k + 1) * (k + 2))
    sinSum sq n (k + 2) term' (!plus) (if plus then acc + (term' : Int) else acc - (term' : Int))

/-- sin(π r) for r in [0, 1/2] in fixed point. -/
def sinFix (r : Nat) : Nat :=
  let x := r * piFix / 2 ^ places
  (sinSum (x * x / 2 ^ places) 40 1 x false (x : Int)).toNat

/-- cos(π r) for r in [0, 1/2] in fixed point. -/
def cosFix (r : Nat) : Nat := sinFix (2 ^ (places - 1) - r)

/-- 2^x (R125). -/
def exp2F : FVal → Exact
  | .nan => .nan
  | .inf n => if n then .zero false else .inf false
  | .num n m e =>
    if m = 0 then .real false 1 1 0
    else
      let nd := scale2 m 1 e
      if 4096 * nd.2 ≤ nd.1 then .real false 1 1 (if n then -5000 else 5000)
      else
        let x := signed n (nd.1 * 2 ^ places / nd.2)
        let i := x / (2 ^ places : Nat)
        let f := (x % (2 ^ places : Nat)).toNat
        if f = 0 then .real false 1 1 i else sticky false (exp2Fix f) false (i - (places : Int))

/-- Bits of log2 of y in [1, 2), fixed point: `n` squarings. -/
def log2Bits : Nat → Nat → Nat → Nat
  | 0, _, acc => acc
  | n + 1, y, acc =>
    let y2 := y * y / 2 ^ places
    if 2 ^ (places + 1) ≤ y2 then log2Bits n (y2 / 2) (2 * acc + 1) else log2Bits n y2 (2 * acc)

/-- log2 x (R125). -/
def log2F : FVal → Exact
  | .nan => .nan
  | .inf n => if n then .nan else .inf false
  | .num n m e =>
    if m = 0 then .inf true
    else if n then .nan
    else
      let l := Nat.log2 m
      let i : Int := e + (l : Int)
      if m = 2 ^ l then (if i = 0 then .zero false else .real (decide (i < 0)) i.natAbs 1 0)
      else
        let b := log2Bits 100 (m * 2 ^ places / 2 ^ l) 0
        let v : Int := i * (2 ^ 100 : Nat) + (b : Int)
        if 0 ≤ v then sticky false v.toNat false (-100) else sticky true (v.natAbs - 1) false (-100)

/-- x mod 2 of a positive dyadic, as fixed point. -/
def mod2Fix (m : Nat) (e : Int) : Nat :=
  let nd := scale2 m 1 (e + (places : Int))
  nd.1 / nd.2 % 2 ^ (places + 1)

/-- sin(πx) (R125). -/
def sinpiF : FVal → Exact
  | .nan => .nan
  | .inf _ => .nan
  | .num n m e =>
    if m = 0 then .zero n
    else
      let r := mod2Fix m e
      let one := 2 ^ places
      let neg := n != decide (one ≤ r)
      let r := r % one
      if r = 0 then .zero n
      else if 2 * r = one then .real neg 1 1 0
      else sticky neg (sinFix (if 2 * r < one then r else one - r)) false (-(places : Int))

/-- cos(πx) (R125). -/
def cospiF : FVal → Exact
  | .nan => .nan
  | .inf _ => .nan
  | .num _ m e =>
    if m = 0 then .real false 1 1 0
    else
      let r := mod2Fix m e
      let one := 2 ^ places
      let r := if one < r then 2 * one - r else r
      if r = 0 then .real false 1 1 0
      else if r = one then .real true 1 1 0
      else if 2 * r = one then .zero false
      else if 2 * r < one then sticky false (cosFix r) false (-(places : Int))
      else sticky true (cosFix (one - r)) false (-(places : Int))

/-- Reciprocal, reciprocal square root and square root with the special operands of R124. -/
def rcpF (x : FVal) : Exact := divF (.num false 1 0) x
/-- FRSQ (R124). -/
def rsqF : FVal → Exact
  | .nan => .nan
  | .inf n => if n then .nan else .zero false
  | .num n m e => if m = 0 then .inf n else if n then .nan else rsqrtExact m e
/-- FSQRT (R124). -/
def sqrtF : FVal → Exact
  | .nan => .nan
  | .inf n => if n then .nan else .inf false
  | .num n m e => if m = 0 then .zero n else if n then .nan else sqrtExact m e

/-- Round to an integral value of the same type (R126): the magnitude as an integer, the sign kept. -/
def integralF (rm : BitVec 3) (rand : Nat) : FVal → Exact
  | .nan => .nan
  | .inf n => .inf n
  | .num n m e =>
    let nd := scale2 m 1 e
    let i := nd.1 / nd.2 + (if roundsUp rm rand n (nd.1 / nd.2) (nd.1 % nd.2) nd.2 then 1 else 0)
    if i = 0 then .zero n else .real n i 1 0

/-- One step of the 32-bit LFSR (R83). -/
def lfsr (x : Word) : Word := if x.getLsbD 0 then (x >>> 1) ^^^ 0x80200003#32 else x >>> 1

end Sys2Proof.Machine
end

