-- ==== Sys2Proof/Config.lean ====
section
/-! DEFINITION. What one K880 fixes and the spec leaves open. Every constant here is OPAQUE: nothing in Lean can
evaluate it, so a statement that mentions one holds whatever its value is. -/

namespace Sys2Proof.Config

/-- The verdict of the boot ROM on a firmware image: both signatures of R455 verify against the fused keys. The keys
are fused into the part and the spec gives none, so the verdict is free (assumption 6). -/
opaque firmwareVerifies : List (BitVec 8) → Bool

/-- The transcript of an SPDM exchange whose MEASUREMENTS response holds some digests, for the requester's nonce (R456). SPDM 1.3
lays it out, which the spec does not repeat, so the bytes are free (assumption 6). -/
opaque spdmTranscript : List (List (BitVec 8)) → BitVec 256 → List (BitVec 8)

/-- The RSA-3072 signature over a transcript (R456). The key is the part's own, so the bytes are free (assumption 6). -/
opaque rsaSignature : List (BitVec 8) → List (BitVec 8)

/-- The SLH-DSA-SHA2-192s signature over a transcript (R456). The key is the part's own, so the bytes are free
(assumption 6). -/
opaque slhDsaSignature : List (BitVec 8) → List (BitVec 8)

/-- A byte of partner memory that an answer of the partner card does not give (assumption 6). -/
opaque partnerByte : Nat → BitVec 8

/-- Whether a fetch in the `k`-th step gives the word that the launch of the wave's record found, where a store has changed it
since (R72 allows both; assumption 14). -/
opaque fetchesOld : Nat → Bool

/-- The same of the `q`-th aligned word of memory for a load under the read-only hint (R84; assumption 14). -/
opaque readsOld : Nat → Nat → Bool

/-- Whether an L1 that has taken a line still holds it in the `k`-th step (assumption 13). -/
opaque l1Holds : Nat → Nat → Bool

/-- Arithmetic-clock cycles that the `k`-th step takes (assumption 8). -/
opaque cyclesOf : Nat → BitVec 16

/-- Nanoseconds that the `k`-th step takes (assumption 8). -/
opaque nanosOf : Nat → BitVec 16

/-- Triangles the input of a coverage unit holds (R390 gives no number; assumption 20). -/
opaque coverageInput : Nat

/-- Entries that the bins of a coverage unit hold, one for each triangle and tile (R392 gives no number; assumption 20). -/
opaque binRoom : Nat

/-- The GDDR7 channel that holds a line, as an error record names it (R431 gives no mapping; assumption 21). -/
opaque channelOf : Nat → BitVec 16

/-- What runs next where the agenda is empty, by the number of the step (assumption 1). -/
opaque nextMove : Nat → Nat

end Sys2Proof.Config
end

