-- ==== Sys2Proof/WellFormed.lean ====
section
/-! DEFINITION. Well-formed instructions: the operand limits that the types of Syntax.lean do not already bound. -/

namespace Sys2Proof

/-- The limits of R75 (grp16, grp4), R79 (FENCE codes), and of the traversal entries R258, R260, R262, R266, R268,
R269. Every other row's operands are bounded by their types. -/
def Instr.wellFormed : Instr → Bool
  | .deq d _ => decide (d.toNat ≤ 240)
  | .cqpop d => decide (d.toNat ≤ 126)
  | .fence order scope _ _ => decide (order.toNat ≤ 4) && decide (scope.toNat ≤ 5)
  | .nfield _ _ k => decide (k.toNat ≤ 15)
  | .boxt _ a => decide (a.toNat ≤ 12)
  | .trit d a => decide (d.toNat ≤ 14) && decide (a.toNat ≤ 12)
  | .pop d => decide (d.toNat ≤ 14)
  | .dist _ _ _ metric dims => decide (metric.toNat ≤ 1) && decide (1 ≤ dims.toNat)
  | .ldq _ width k => queryOperand width k
  | .stq _ width k => queryOperand width k
  | _ => true
where
  /-- R269: k is 0 to 9, and even and at most 8 under width 1. -/
  queryOperand (width : BitVec 1) (k : BitVec 4) : Bool :=
    if width = 0#1 then decide (k.toNat ≤ 9) else decide (k.toNat ≤ 8) && !k.getLsbD 0

/-- A well-formed instruction, as a proposition. -/
abbrev Instr.WellFormed (i : Instr) : Prop := i.wellFormed = true

end Sys2Proof
end

