-- ==== Sys2Proof/Decode.lean ====
section
/-! DEFINITION. The decoders of the two instruction sets, total on every word and refusing by name, and after them the
encoder. Gyrix words: R70 to R81. Traversal words: R253 to R255. -/

namespace Sys2Proof

/-- Why a word is no instruction: its opcode is unassigned (R80, R255), or a field breaks its kind or range (R75, R255). -/
inductive DecodeError where
  | unassignedOpcode
  | fieldKind
  deriving DecidableEq, Repr

/-! ### Fields -/

/-- Bits [31:24] (R70). -/
def fOp (w : Word) : BitVec 8 := w.extractLsb' 24 8
/-- Bits [23:16] (R73). -/
def fD (w : Word) : BitVec 8 := w.extractLsb' 16 8
/-- Bits [15:8] (R73). -/
def fA (w : Word) : BitVec 8 := w.extractLsb' 8 8
/-- Bits [7:0] (R73). -/
def fB (w : Word) : BitVec 8 := w.extractLsb' 0 8
/-- imm16 of Form C (R73). -/
def fImm16 (w : Word) : BitVec 16 := w.extractLsb' 0 16
/-- imm24 of Form D (R73). -/
def fImm24 (w : Word) : BitVec 24 := w.extractLsb' 0 24

/-- Bits [31:26] of a traversal word (R253). -/
def gOp (w : Word) : BitVec 6 := w.extractLsb' 26 6
/-- Bits [25:22] (R253). -/
def gD (w : Word) : BitVec 4 := w.extractLsb' 22 4
/-- Bits [21:18] (R253). -/
def gA (w : Word) : BitVec 4 := w.extractLsb' 18 4
/-- Bits [17:14] (R253). -/
def gB (w : Word) : BitVec 4 := w.extractLsb' 14 4
/-- imm14 (R253). -/
def gImm (w : Word) : BitVec 14 := w.extractLsb' 0 14

/-! ### Field kinds (R75) -/

/-- Kind pair: an odd value is refused. -/
def asPair (x : BitVec 8) : Option Pair := if x.getLsbD 0 then none else some (x.extractLsb' 1 7)

/-- A field of which the low `n` bits are used and the others must be zero: kinds pred and slot, and the short
immediates of R79. -/
def asImm (n : Nat) (x : BitVec 8) : Option (BitVec n) :=
  if x.toNat < 2 ^ n then some (x.setWidth n) else none

/-- Kinds pred and slot: bits [7:3] must be zero. -/
def asPred (x : BitVec 8) : Option (BitVec 3) := asImm 3 x

/-- Refuse unless the must-be-zero fields are zero. -/
def need (c : Prop) [Decidable c] (r : Except DecodeError Instr) : Except DecodeError Instr :=
  if c then r else .error .fieldKind

/-- Refuse a field that breaks its kind. -/
def field {α : Type} (x : Option α) (k : α → Except DecodeError Instr) : Except DecodeError Instr :=
  match x with
  | some v => k v
  | none => .error .fieldKind

/-- Refuse an operand outside the limits of WellFormed.lean. -/
def checked (i : Instr) : Except DecodeError Instr := if i.wellFormed then .ok i else .error .fieldKind

/-! ### The decoders -/

/-- Row 0x0_ of the opcode map (R78), with the field kinds of R79. -/
def decodeRow0 (w : Word) : Except DecodeError Instr :=
  match (fOp w).extractLsb' 0 4 with
  | 0x0#4 => need (fD w = 0 ∧ fA w = 0 ∧ fB w = 0) (.ok .nop)
  | 0x1#4 => need (fD w = 0) (.ok (.model (fImm16 w)))
  | 0x2#4 => need (fD w = 0 ∧ fA w = 0) (.ok (.modeh (fB w)))
  | 0x3#4 => need (fD w = 0 ∧ fB w = 0) (.ok (.modev (fA w)))
  | 0x4#4 => .ok (.getsr (fD w) (fImm16 w))
  | 0x5#4 => .ok (.setsr (fD w) (fImm16 w))
  | 0x6#4 => .ok (.ldi (fD w) (fImm16 w))
  | 0x7#4 => .ok (.ldih (fD w) (fImm16 w))
  | 0x8#4 => field (asPair (fD w)) fun x => .ok (.pcrel x (fImm16 w))
  | 0x9#4 => field (asPair (fD w)) fun x => .ok (.cbase x (fImm16 w))
  | 0xA#4 => need (fB w = 0) (.ok (.mov (fD w) (fA w)))
  | 0xB#4 => .ok (.sel (fD w) (fA w) (fB w))
  | _ => .error .unassignedOpcode

/-- Row 0x1_ of the opcode map (R78), with the field kinds of R79. -/
def decodeRow1 (w : Word) : Except DecodeError Instr :=
  match (fOp w).extractLsb' 0 4 with
  | 0x0#4 => .ok (.add (fD w) (fA w) (fB w))
  | 0x1#4 => .ok (.sub (fD w) (fA w) (fB w))
  | 0x2#4 => .ok (.mul (fD w) (fA w) (fB w))
  | 0x3#4 => .ok (.mulh (fD w) (fA w) (fB w))
  | 0x4#4 => .ok (.mad (fD w) (fA w) (fB w))
  | 0x5#4 => .ok (.min (fD w) (fA w) (fB w))
  | 0x6#4 => .ok (.max (fD w) (fA w) (fB w))
  | 0x7#4 => need (fB w = 0) (.ok (.abs (fD w) (fA w)))
  | 0x8#4 => need (fB w = 0) (.ok (.neg (fD w) (fA w)))
  | 0x9#4 => .ok (.and (fD w) (fA w) (fB w))
  | 0xA#4 => .ok (.or (fD w) (fA w) (fB w))
  | 0xB#4 => .ok (.xor (fD w) (fA w) (fB w))
  | 0xC#4 => need (fB w = 0) (.ok (.not (fD w) (fA w)))
  | 0xD#4 => .ok (.shl (fD w) (fA w) (fB w))
  | 0xE#4 => .ok (.shr (fD w) (fA w) (fB w))
  | _ => need (fB w = 0) (.ok (.clz (fD w) (fA w)))

/-- Row 0x2_ of the opcode map (R78), with the field kinds of R79. -/
def decodeRow2 (w : Word) : Except DecodeError Instr :=
  match (fOp w).extractLsb' 0 4 with
  | 0x0#4 => need (fB w = 0) (.ok (.popc (fD w) (fA w)))
  | 0x1#4 => .ok (.bfe (fD w) (fA w) (fB w))
  | 0x2#4 => .ok (.bfi (fD w) (fA w) (fB w))
  | 0x3#4 => .ok (.addi (fD w) (fA w) (fB w))
  | 0x4#4 => field (asImm 6 (fB w)) fun z => .ok (.shli (fD w) (fA w) z)
  | 0x5#4 => field (asImm 6 (fB w)) fun z => .ok (.shri (fD w) (fA w) z)
  | 0x6#4 => .ok (.andi (fD w) (fA w) (fB w))
  | 0x7#4 => .ok (.muli (fD w) (fA w) (fB w))
  | 0x8#4 => field (asPair (fD w)) fun x => field (asPair (fA w)) fun y => .ok (.adda x y (fB w))
  | 0x9#4 => field (asPair (fD w)) fun x => field (asPair (fA w)) fun y => .ok (.lea2 x y (fB w))
  | 0xA#4 => field (asPair (fD w)) fun x => field (asPair (fA w)) fun y => .ok (.lea4 x y (fB w))
  | 0xB#4 => field (asPair (fD w)) fun x => field (asPair (fA w)) fun y => .ok (.lea8 x y (fB w))
  | 0xC#4 => field (asPair (fA w)) fun y => field (asPair (fB w)) fun z => .ok (.suba (fD w) y z)
  | _ => .error .unassignedOpcode

/-- Row 0x4_ of the opcode map (R78), with the field kinds of R79. -/
def decodeRow4 (w : Word) : Except DecodeError Instr :=
  match (fOp w).extractLsb' 0 4 with
  | 0x0#4 => field (asPred (fD w)) fun x => .ok (.cmpeq x (fA w) (fB w))
  | 0x1#4 => field (asPred (fD w)) fun x => .ok (.cmpne x (fA w) (fB w))
  | 0x2#4 => field (asPred (fD w)) fun x => .ok (.cmplt x (fA w) (fB w))
  | 0x3#4 => field (asPred (fD w)) fun x => .ok (.cmple x (fA w) (fB w))
  | 0x4#4 => field (asPred (fD w)) fun x => .ok (.cmpgt x (fA w) (fB w))
  | 0x5#4 => field (asPred (fD w)) fun x => .ok (.cmpge x (fA w) (fB w))
  | 0x6#4 => field (asPred (fD w)) fun x => .ok (.cmpun x (fA w) (fB w))
  | 0x7#4 => field (asPred (fD w)) fun x => field (asPred (fA w)) fun y => field (asPred (fB w)) fun z => .ok (.pand x y z)
  | 0x8#4 => field (asPred (fD w)) fun x => field (asPred (fA w)) fun y => field (asPred (fB w)) fun z => .ok (.por x y z)
  | 0x9#4 => field (asPred (fD w)) fun x => field (asPred (fA w)) fun y => field (asPred (fB w)) fun z => .ok (.pxor x y z)
  | 0xA#4 => need (fB w = 0) (field (asPred (fD w)) fun x => field (asPred (fA w)) fun y => .ok (.pnot x y))
  | 0xB#4 => need (fB w = 0) (field (asPred (fA w)) fun y => .ok (.ballot (fD w) y))
  | 0xC#4 => need (fB w = 0) (field (asPred (fD w)) fun x => .ok (.pfrom x (fA w)))
  | 0xD#4 => need (fB w = 0) (.ok (.shape (fD w) (fA w)))
  | 0xE#4 => need (fB w = 0) (.ok (.expand (fD w) (fA w)))
  | _ => need (fA w = 0 ∧ fB w = 0) (.ok (.laneid (fD w)))

/-- Row 0x5_ of the opcode map (R78), with the field kinds of R79. -/
def decodeRow5 (w : Word) : Except DecodeError Instr :=
  match (fOp w).extractLsb' 0 4 with
  | 0x0#4 => .ok (.readlane (fD w) (fA w) (fB w))
  | 0x1#4 => .ok (.shfl (fD w) (fA w) (fB w))
  | 0x2#4 => field (asImm 5 (fB w)) fun z => .ok (.shflup (fD w) (fA w) z)
  | 0x3#4 => field (asImm 5 (fB w)) fun z => .ok (.shfldn (fD w) (fA w) z)
  | 0x4#4 => field (asImm 5 (fB w)) fun z => .ok (.shflx (fD w) (fA w) z)
  | 0x5#4 => need (fB w = 0) (.ok (.vconflict (fD w) (fA w)))
  | 0x6#4 => need (fB w = 0) (.ok (.scanadd (fD w) (fA w)))
  | 0x7#4 => need (fB w = 0) (.ok (.redadd (fD w) (fA w)))
  | 0x8#4 => need (fB w = 0) (.ok (.redmin (fD w) (fA w)))
  | 0x9#4 => need (fB w = 0) (.ok (.redmax (fD w) (fA w)))
  | 0xA#4 => need (fB w = 0) (.ok (.compact (fD w) (fA w)))
  | _ => .error .unassignedOpcode

/-- Row 0x6_ of the opcode map (R78), with the field kinds of R79. -/
def decodeRow6 (w : Word) : Except DecodeError Instr :=
  match (fOp w).extractLsb' 0 4 with
  | 0x0#4 => .ok (.fadd (fD w) (fA w) (fB w))
  | 0x1#4 => .ok (.fsub (fD w) (fA w) (fB w))
  | 0x2#4 => .ok (.fmul (fD w) (fA w) (fB w))
  | 0x3#4 => .ok (.fma (fD w) (fA w) (fB w))
  | 0x4#4 => .ok (.fmin (fD w) (fA w) (fB w))
  | 0x5#4 => .ok (.fmax (fD w) (fA w) (fB w))
  | 0x6#4 => need (fB w = 0) (.ok (.fabs (fD w) (fA w)))
  | 0x7#4 => need (fB w = 0) (.ok (.fneg (fD w) (fA w)))
  | 0x8#4 => need (fB w = 0) (.ok (.frcp (fD w) (fA w)))
  | 0x9#4 => need (fB w = 0) (.ok (.frsq (fD w) (fA w)))
  | 0xA#4 => need (fB w = 0) (.ok (.fsqrt (fD w) (fA w)))
  | 0xB#4 => need (fB w = 0) (.ok (.fexp2 (fD w) (fA w)))
  | 0xC#4 => need (fB w = 0) (.ok (.flog2 (fD w) (fA w)))
  | 0xD#4 => need (fB w = 0) (.ok (.fsinpi (fD w) (fA w)))
  | 0xE#4 => need (fB w = 0) (.ok (.fcospi (fD w) (fA w)))
  | _ => need (fB w = 0) (.ok (.frnd (fD w) (fA w)))

/-- Row 0x7_ of the opcode map (R78), with the field kinds of R79. -/
def decodeRow7 (w : Word) : Except DecodeError Instr :=
  match (fOp w).extractLsb' 0 4 with
  | 0x0#4 => need (fB w = 0) (.ok (.fclass (fD w) (fA w)))
  | 0x1#4 => .ok (.fdot2 (fD w) (fA w) (fB w))
  | 0x2#4 => need (fB w = 0) (.ok (.cvt (fD w) (fA w)))
  | 0x3#4 => .ok (.pack (fD w) (fA w) (fB w))
  | 0x4#4 => field (asImm 2 (fB w)) fun z => .ok (.unpk (fD w) (fA w) z)
  | 0x5#4 => .ok (.fdiv (fD w) (fA w) (fB w))
  | _ => .error .unassignedOpcode

/-- Row 0x8_ of the opcode map (R78), with the field kinds of R79. -/
def decodeRow8 (w : Word) : Except DecodeError Instr :=
  match (fOp w).extractLsb' 0 4 with
  | 0x0#4 => .ok (.bra (fImm24 w))
  | 0x1#4 => .ok (.brc (fImm24 w))
  | 0x2#4 => .ok (.brca (fImm24 w))
  | 0x3#4 => .ok (.call (fImm24 w))
  | 0x4#4 => need (fD w = 0 ∧ fB w = 0) (field (asPair (fA w)) fun x => .ok (.callr x))
  | 0x5#4 => need (fD w = 0 ∧ fA w = 0 ∧ fB w = 0) (.ok .ret)
  | 0x6#4 => need (fD w = 0 ∧ fB w = 0) (field (asPair (fA w)) fun x => .ok (.jmpr x))
  | 0x7#4 => .ok (.ifLanes (fImm24 w))
  | 0x8#4 => .ok (.elseLanes (fImm24 w))
  | 0x9#4 => need (fD w = 0 ∧ fA w = 0 ∧ fB w = 0) (.ok .endIf)
  | 0xA#4 => .ok (.loopLanes (fImm24 w))
  | 0xB#4 => .ok (.breakLanes (fImm24 w))
  | 0xC#4 => .ok (.contLanes (fImm24 w))
  | 0xD#4 => .ok (.endLoop (fImm24 w))
  | 0xE#4 => need (fD w = 0 ∧ fA w = 0 ∧ fB w = 0) (.ok .exit)
  | _ => need (fD w = 0 ∧ fA w = 0 ∧ fB w = 0) (.ok .trig)

/-- Row 0x9_ of the opcode map (R78), with the field kinds of R79. -/
def decodeRow9 (w : Word) : Except DecodeError Instr :=
  match (fOp w).extractLsb' 0 4 with
  | 0x0#4 => need (fD w = 0) (field (asPair (fA w)) fun x => .ok (.spawn x (fB w)))
  | 0x1#4 => need (fD w = 0 ∧ fB w = 0) (field (asPair (fA w)) fun x => .ok (.suspend x))
  | 0x2#4 => need (fD w = 0 ∧ fB w = 0) (field (asPair (fA w)) fun x => .ok (.join x))
  | 0x3#4 => need (fB w = 0) (checked (.deq (fD w) (fA w)))
  | 0x4#4 => field (asPair (fA w)) fun y => .ok (.enq (fD w) y (fB w))
  | 0x5#4 => need (fD w = 0 ∧ fA w = 0 ∧ fB w = 0) (.ok .yield)
  | 0x6#4 => need (fD w = 0 ∧ fA w = 0) (field (asImm 4 (fB w)) fun i => .ok (.bar i))
  | _ => .error .unassignedOpcode

/-- Row 0xA_ of the opcode map (R78), with the field kinds of R79. -/
def decodeRowA (w : Word) : Except DecodeError Instr :=
  match (fOp w).extractLsb' 0 4 with
  | 0x0#4 => field (asPair (fA w)) fun y => .ok (.ld (fD w) y (fB w))
  | 0x1#4 => field (asPair (fA w)) fun y => .ok (.ldx (fD w) y (fB w))
  | 0x2#4 => field (asPair (fA w)) fun y => .ok (.st (fD w) y (fB w))
  | 0x3#4 => field (asPair (fA w)) fun y => .ok (.stx (fD w) y (fB w))
  | 0x4#4 => .ok (.lds (fD w) (fA w) (fB w))
  | 0x5#4 => .ok (.sts (fD w) (fA w) (fB w))
  | 0x6#4 => need (fD w = 0) (field (asPair (fA w)) fun x => .ok (.pref x (fB w)))
  | 0x7#4 => field (asPair (fA w)) fun y => .ok (.ldz (fD w) y (fB w))
  | 0x8#4 => field (asPair (fA w)) fun y => .ok (.stz (fD w) y (fB w))
  | 0x9#4 => field (asPair (fA w)) fun y => .ok (.aadd (fD w) y (fB w))
  | 0xA#4 => field (asPair (fA w)) fun y => .ok (.amin (fD w) y (fB w))
  | 0xB#4 => field (asPair (fA w)) fun y => .ok (.amax (fD w) y (fB w))
  | 0xC#4 => field (asPair (fA w)) fun y => .ok (.aand (fD w) y (fB w))
  | 0xD#4 => field (asPair (fA w)) fun y => .ok (.aor (fD w) y (fB w))
  | 0xE#4 => field (asPair (fA w)) fun y => .ok (.axor (fD w) y (fB w))
  | _ => field (asPair (fA w)) fun y => .ok (.axchg (fD w) y (fB w))

/-- Row 0xB_ of the opcode map (R78), with the field kinds of R79. -/
def decodeRowB (w : Word) : Except DecodeError Instr :=
  match (fOp w).extractLsb' 0 4 with
  | 0x0#4 => field (asPair (fA w)) fun y => .ok (.acas (fD w) y (fB w))
  | 0x2#4 => need (fD w = 0 ∧ fA w = 0) (checked (.fence ((fB w).extractLsb' 0 3) ((fB w).extractLsb' 3 3) ((fB w).getLsbD 6) ((fB w).getLsbD 7)))
  | 0x3#4 => need (fD w = 0 ∧ fB w = 0) (field (asPair (fA w)) fun x => .ok (.publish x))
  | 0x4#4 => need (fB w = 0) (.ok (.arrive (fD w) (fA w)))
  | 0x5#4 => .ok (.arrivetx (fD w) (fA w) (fB w))
  | 0x6#4 => need (fD w = 0) (.ok (.waitph (fA w) (fB w)))
  | _ => .error .unassignedOpcode

/-- Row 0xC_ of the opcode map (R78), with the field kinds of R79. -/
def decodeRowC (w : Word) : Except DecodeError Instr :=
  match (fOp w).extractLsb' 0 4 with
  | 0x0#4 => need (fD w = 0) (field (asPair (fA w)) fun x => field (asImm 5 (fB w)) fun u => .ok (.cpyset x (u.extractLsb' 0 3) (u.extractLsb' 3 2)))
  | 0x1#4 => need (fA w = 0) (field (asImm 2 (fB w)) fun y => .ok (.cpygo (fD w) y))
  | 0x2#4 => need (fD w = 0) (field (asImm 2 (fB w)) fun y => .ok (.waitid (fA w) y))
  | 0x3#4 => field (asPair (fA w)) fun y => .ok (.rgather (fD w) y (fB w))
  | 0x4#4 => field (asPair (fA w)) fun y => .ok (.rscat (fD w) y (fB w))
  | 0x5#4 => field (asPair (fA w)) fun y => .ok (.rscatadd (fD w) y (fB w))
  | 0x6#4 => field (asPair (fA w)) fun y => .ok (.coll (fD w) y (fB w))
  | _ => .error .unassignedOpcode

/-- Row 0xD_ of the opcode map (R78), with the field kinds of R79. -/
def decodeRowD (w : Word) : Except DecodeError Instr :=
  match (fOp w).extractLsb' 0 4 with
  | 0x0#4 => field (asImm 7 (fD w)) fun u => field (asPair (fA w)) fun x => field (asPair (fB w)) fun y => .ok (.mma (u.extractLsb' 0 3) (u.extractLsb' 3 4) x y)
  | 0x1#4 => field (asImm 7 (fD w)) fun u => field (asPair (fA w)) fun x => field (asPair (fB w)) fun y => .ok (.mmap (u.extractLsb' 0 3) (u.extractLsb' 3 4) x y)
  | 0x2#4 => need (fA w = 0 ∧ fB w = 0) (.ok (.mxfence (fD w)))
  | 0x3#4 => need (fD w = 0 ∧ fB w = 0) (.ok (.mxwait (fA w)))
  | 0x4#4 => need (fD w = 0 ∧ fA w = 0) (.ok (.acswap (fB w)))
  | 0x5#4 => field (asPred (fB w)) fun z => .ok (.acld (fD w) (fA w) z)
  | 0x6#4 => field (asPred (fB w)) fun z => .ok (.acst (fD w) (fA w) z)
  | 0x7#4 => need (fD w = 0 ∧ fA w = 0) (.ok (.aczero (fB w)))
  | 0x8#4 => need (fD w = 0) (field (asPair (fA w)) fun x => field (asPred (fB w)) fun y => .ok (.acdrain x y))
  | 0x9#4 => field (asPred (fD w)) fun x => field (asPred (fB w)) fun z => .ok (.sacc x (fA w) z)
  | 0xA#4 => need (fD w = 0) (field (asPair (fA w)) fun x => field (asImm 2 (fB w)) fun y => .ok (.cbload x y))
  | 0xB#4 => need (fB w = 0) (field (asPred (fD w)) fun x => .ok (.mxredx x (fA w)))
  | 0xC#4 => need (fD w = 0 ∧ fA w = 0 ∧ fB w = 0) (.ok .rcfence)
  | _ => .error .unassignedOpcode

/-- Row 0xE_ of the opcode map (R78), with the field kinds of R79. -/
def decodeRowE (w : Word) : Except DecodeError Instr :=
  match (fOp w).extractLsb' 0 4 with
  | 0x0#4 => need (fD w = 0) (field (asPair (fA w)) fun x => field (asImm 1 (fB w)) fun y => .ok (.taload x y))
  | 0x1#4 => field (asPred (fD w)) fun x => field (asPair (fA w)) fun y => .ok (.taeval x y (fB w))
  | 0x2#4 => field (asPair (fA w)) fun y => .ok (.leafgather (fD w) y (fB w))
  | 0x3#4 => field (asPair (fA w)) fun y => .ok (.sgnproj (fD w) y (fB w))
  | 0x8#4 => field (asPair (fA w)) fun y => .ok (.tlaunch (fD w) y (fB w))
  | 0x9#4 => need (fA w = 0 ∧ fB w = 0) (field (asPair (fD w)) fun x => checked (.cqpop x))
  | 0xA#4 => need (fD w = 0 ∧ fB w = 0) (.ok (.cqwait (fA w)))
  | _ => .error .unassignedOpcode

/-- Row 0xF_ of the opcode map (R78), with the field kinds of R79. -/
def decodeRowF (w : Word) : Except DecodeError Instr :=
  match (fOp w).extractLsb' 0 4 with
  | 0x0#4 => field (asPair (fD w)) fun x => field (asPair (fA w)) fun y => .ok (.ldlod x y (fB w))
  | 0x1#4 => field (asPair (fA w)) fun y => .ok (.sample (fD w) y (fB w))
  | 0x2#4 => need (fD w = 0 ∧ fB w = 0) (field (asPair (fA w)) fun x => .ok (.primemit x))
  | 0x3#4 => need (fB w = 0) (.ok (.visrd (fD w) (fA w)))
  | 0x8#4 => need (fD w = 0) (.ok (.trap (fImm16 w)))
  | 0x9#4 => need (fD w = 0) (.ok (.brk (fImm16 w)))
  | 0xA#4 => need (fD w = 0 ∧ fA w = 0 ∧ fB w = 0) (.ok .rte)
  | _ => .error .unassignedOpcode

/-- R70, R78, R80: the opcode alone selects the form; every unassigned opcode is refused. -/
def decodeGyrix (w : Word) : Except DecodeError Instr :=
  match (fOp w).extractLsb' 4 4 with
  | 0x0#4 => decodeRow0 w
  | 0x1#4 => decodeRow1 w
  | 0x2#4 => decodeRow2 w
  | 0x4#4 => decodeRow4 w
  | 0x5#4 => decodeRow5 w
  | 0x6#4 => decodeRow6 w
  | 0x7#4 => decodeRow7 w
  | 0x8#4 => decodeRow8 w
  | 0x9#4 => decodeRow9 w
  | 0xA#4 => decodeRowA w
  | 0xB#4 => decodeRowB w
  | 0xC#4 => decodeRowC w
  | 0xD#4 => decodeRowD w
  | 0xE#4 => decodeRowE w
  | 0xF#4 => decodeRowF w
  | _ => .error .unassignedOpcode

/-- Opcodes 0x00 to 0x0F of the traversal map (R254) with the fields of R258 to R273. -/
def decodeGtsA (w : Word) : Except DecodeError Instr :=
  match gOp w with
  | 0x01#6 => need (gD w = 0 ∧ gB w = 0 ∧ gImm w = 0) (.ok (.nfetch (gA w)))
  | 0x02#6 => need (gA w = 0 ∧ gB w = 0 ∧ gImm w = 0) (.ok (.ndec (gD w)))
  | 0x03#6 => need (gB w = 0) (checked (.nfield (gD w) (gA w) (gImm w)))
  | 0x04#6 => need (gB w = 0 ∧ gImm w = 0) (.ok (.nchild (gD w) (gA w)))
  | 0x05#6 => need (gB w = 0 ∧ gImm w = 0) (checked (.boxt (gD w) (gA w)))
  | 0x06#6 => need (gB w = 0 ∧ gImm w = 0) (checked (.trit (gD w) (gA w)))
  | 0x07#6 => need (gB w = 0 ∧ gImm w = 0) (checked (.frust (gD w) (gA w)))
  | 0x08#6 => need (gB w = 0 ∧ (gImm w).extractLsb' 1 13 = 0) (.ok (.kcmp (gD w) (gA w) ((gImm w).extractLsb' 0 1)))
  | 0x09#6 => need (gImm w = 0) (.ok (.krange (gD w) (gA w) (gB w)))
  | 0x0A#6 => checked (.dist (gD w) (gA w) (gB w) ((gImm w).extractLsb' 12 2) ((gImm w).extractLsb' 0 12))
  | 0x0B#6 => need (gImm w = 0) (.ok (.topk (gD w) (gA w) (gB w)))
  | 0x0C#6 => need (gD w = 0 ∧ gImm w = 0) (.ok (.push (gA w) (gB w)))
  | 0x0D#6 => need (gD w = 0 ∧ (gImm w).extractLsb' 1 13 = 0) (.ok (.pushm (gA w) (gB w) ((gImm w).extractLsb' 0 1)))
  | 0x0E#6 => need (gA w = 0 ∧ gB w = 0 ∧ gImm w = 0) (checked (.pop (gD w)))
  | 0x0F#6 => need (gA w = 0 ∧ gB w = 0 ∧ gImm w = 0) (.ok (.stkd (gD w)))
  | _ => .error .unassignedOpcode

/-- Opcodes 0x10 to 0x25 of the traversal map (R254) with the fields of R258 to R273. -/
def decodeGtsB (w : Word) : Except DecodeError Instr :=
  match gOp w with
  | 0x10#6 => need (gA w = 0 ∧ gB w = 0 ∧ (gImm w).extractLsb' 5 9 = 0) (checked (.ldq (gD w) ((gImm w).extractLsb' 4 1) ((gImm w).extractLsb' 0 4)))
  | 0x11#6 => need (gD w = 0 ∧ gB w = 0 ∧ (gImm w).extractLsb' 5 9 = 0) (checked (.stq (gA w) ((gImm w).extractLsb' 4 1) ((gImm w).extractLsb' 0 4)))
  | 0x12#6 => need (gB w = 0) (.ok (.ldn (gD w) (gA w) (gImm w)))
  | 0x13#6 => if (gImm w).getLsbD 13 then need (gB w = 0) (.ok (.gtsAddImm (gD w) (gA w) ((gImm w).extractLsb' 0 13))) else need (gImm w = 0) (.ok (.gtsAdd (gD w) (gA w) (gB w)))
  | 0x14#6 => if (gImm w).getLsbD 13 then need (gB w = 0) (.ok (.gtsSubImm (gD w) (gA w) ((gImm w).extractLsb' 0 13))) else need (gImm w = 0) (.ok (.gtsSub (gD w) (gA w) (gB w)))
  | 0x15#6 => if (gImm w).getLsbD 13 then need (gB w = 0) (.ok (.gtsMulImm (gD w) (gA w) ((gImm w).extractLsb' 0 13))) else need (gImm w = 0) (.ok (.gtsMul (gD w) (gA w) (gB w)))
  | 0x16#6 => if (gImm w).getLsbD 13 then need (gB w = 0) (.ok (.gtsAndImm (gD w) (gA w) ((gImm w).extractLsb' 0 13))) else need (gImm w = 0) (.ok (.gtsAnd (gD w) (gA w) (gB w)))
  | 0x17#6 => if (gImm w).getLsbD 13 then need (gB w = 0) (.ok (.gtsOrImm (gD w) (gA w) ((gImm w).extractLsb' 0 13))) else need (gImm w = 0) (.ok (.gtsOr (gD w) (gA w) (gB w)))
  | 0x18#6 => if (gImm w).getLsbD 13 then need (gB w = 0) (.ok (.gtsXorImm (gD w) (gA w) ((gImm w).extractLsb' 0 13))) else need (gImm w = 0) (.ok (.gtsXor (gD w) (gA w) (gB w)))
  | 0x19#6 => if (gImm w).getLsbD 13 then need (gB w = 0) (.ok (.gtsShlImm (gD w) (gA w) ((gImm w).extractLsb' 0 13))) else need (gImm w = 0) (.ok (.gtsShl (gD w) (gA w) (gB w)))
  | 0x1A#6 => if (gImm w).getLsbD 13 then need (gB w = 0) (.ok (.gtsShrImm (gD w) (gA w) ((gImm w).extractLsb' 0 13))) else need (gImm w = 0) (.ok (.gtsShr (gD w) (gA w) (gB w)))
  | 0x1B#6 => need (gB w = 0 ∧ gImm w = 0) (.ok (.gtsMov (gD w) (gA w)))
  | 0x1C#6 => need (gA w = 0 ∧ gB w = 0) (.ok (.gtsLdi (gD w) (gImm w)))
  | 0x1D#6 => need (gD w = 0 ∧ (gImm w).extractLsb' 3 11 = 0) (.ok (.gtsCmp (gA w) (gB w) ((gImm w).extractLsb' 0 3)))
  | 0x1E#6 => need (gD w = 0 ∧ gA w = 0 ∧ gB w = 0) (.ok (.jump (gImm w)))
  | 0x1F#6 => need (gD w = 0 ∧ gA w = 0 ∧ gB w = 0) (.ok (.jumpF (gImm w)))
  | 0x20#6 => need (gD w = 0 ∧ gA w = 0 ∧ gB w = 0) (.ok (.jumpNF (gImm w)))
  | 0x21#6 => need (gD w = 0 ∧ gB w = 0 ∧ gImm w = 0) (.ok (.emit (gA w)))
  | 0x22#6 => need (gD w = 0 ∧ gB w = 0) (.ok (.hook (gA w) (gImm w)))
  | 0x23#6 => need (gD w = 0 ∧ gB w = 0 ∧ gImm w = 0) (.ok (.done (gA w)))
  | 0x24#6 => need (gD w = 0 ∧ gImm w = 0) (.ok (.cover (gA w) (gB w)))
  | 0x25#6 => need (gD w = 0 ∧ gB w = 0 ∧ gImm w = 0) (.ok (.handoff (gA w)))
  | _ => .error .unassignedOpcode

/-- R253 to R255: the traversal decoder. -/
def decodeGts (w : Word) : Except DecodeError Instr :=
  if (gOp w).toNat < 16 then decodeGtsA w else decodeGtsB w

/-- The traversal instructions: those a walker reads (R230, R254). -/
def isTraversal : Instr → Bool
  | .nfetch _ | .ndec _ | .nfield _ _ _ | .nchild _ _ | .boxt _ _ | .trit _ _ | .frust _ _ | .kcmp _ _ _ | .krange _ _ _
  | .dist _ _ _ _ _ | .topk _ _ _ | .push _ _ | .pushm _ _ _ | .pop _ | .stkd _ | .ldq _ _ _ | .stq _ _ _ | .ldn _ _ _
  | .gtsAdd _ _ _ | .gtsAddImm _ _ _ | .gtsSub _ _ _ | .gtsSubImm _ _ _ | .gtsMul _ _ _ | .gtsMulImm _ _ _
  | .gtsAnd _ _ _ | .gtsAndImm _ _ _ | .gtsOr _ _ _ | .gtsOrImm _ _ _ | .gtsXor _ _ _ | .gtsXorImm _ _ _
  | .gtsShl _ _ _ | .gtsShlImm _ _ _ | .gtsShr _ _ _ | .gtsShrImm _ _ _ | .gtsMov _ _ | .gtsLdi _ _ | .gtsCmp _ _ _
  | .jump _ | .jumpF _ | .jumpNF _ | .emit _ | .hook _ _ | .done _ | .cover _ _ | .handoff _ => true
  | _ => false

/-- The decoder of the set that an instruction belongs to. -/
def decoderOf (i : Instr) (w : Word) : Except DecodeError Instr := if isTraversal i then decodeGts w else decodeGyrix w

/-- Gyrix or traversal, as the fetching agent reads it (assumption 5): the Gyrix reading of a word where there is one,
else its traversal reading. -/
def decodeEither (w : Word) : Option Instr :=
  match decodeGyrix w with
  | .ok i => some i
  | .error _ => match decodeGts w with
    | .ok i => some i
    | .error _ => none

/-- The instruction read from a word numbered as the opcode table numbers it; every row is one 32-bit word (R70, R253),
so a longer or shorter word is none. -/
def decodeTableWord (nbits w : Nat) : Option Instr :=
  if nbits ≤ 32 ∧ w < 2 ^ 32 then decodeEither (BitVec.ofNat 32 w) else none

/-! ### The encoder -/

/-- Form A and B words (R73). -/
def formA (op d a b : BitVec 8) : Word :=
  BitVec.ofNat 32 (op.toNat * 0x1000000 + d.toNat * 0x10000 + a.toNat * 0x100 + b.toNat)
/-- Form C words (R73). -/
def formC (op d : BitVec 8) (imm : BitVec 16) : Word :=
  BitVec.ofNat 32 (op.toNat * 0x1000000 + d.toNat * 0x10000 + imm.toNat)
/-- Form D words (R73). -/
def formD (op : BitVec 8) (imm : BitVec 24) : Word :=
  BitVec.ofNat 32 (op.toNat * 0x1000000 + imm.toNat)
/-- Traversal words (R253). -/
def gtsForm (op : BitVec 6) (d a b : BitVec 4) (imm : BitVec 14) : Word :=
  BitVec.ofNat 32 (op.toNat * 0x4000000 + d.toNat * 0x400000 + a.toNat * 0x40000 + b.toNat * 0x4000 + imm.toNat)

/-- The field of a pair: its even register (R75). -/
def pairField (k : Pair) : BitVec 8 := BitVec.ofNat 8 (2 * k.toNat)
/-- A short immediate with its must-be-zero bits. -/
def immField {n : Nat} (x : BitVec n) : BitVec 8 := x.setWidth 8
/-- The field of a predicate or a slot. -/
def predField (p : BitVec 3) : BitVec 8 := immField p
/-- One bit. -/
def bit (b : Bool) : BitVec 1 := BitVec.ofBool b

/-- The word of an instruction, by the same tables (R73, R79, R253, R258 to R273); none for a step or event of the
device, which has no word. -/
def encode : Instr → Option Word
  | .nop => some (formA 0x00#8 0#8 0#8 0#8)
  | .model i => some (formC 0x01#8 0#8 i)
  | .modeh i => some (formC 0x02#8 0#8 (0#8 ++ i))
  | .modev x => some (formA 0x03#8 0#8 x 0#8)
  | .getsr x i => some (formC 0x04#8 x i)
  | .setsr x i => some (formC 0x05#8 x i)
  | .ldi x i => some (formC 0x06#8 x i)
  | .ldih x i => some (formC 0x07#8 x i)
  | .pcrel x i => some (formC 0x08#8 (pairField x) i)
  | .cbase x i => some (formC 0x09#8 (pairField x) i)
  | .mov x y => some (formA 0x0A#8 x y 0#8)
  | .sel x y z => some (formA 0x0B#8 x y z)
  | .add x y z => some (formA 0x10#8 x y z)
  | .sub x y z => some (formA 0x11#8 x y z)
  | .mul x y z => some (formA 0x12#8 x y z)
  | .mulh x y z => some (formA 0x13#8 x y z)
  | .mad x y z => some (formA 0x14#8 x y z)
  | .min x y z => some (formA 0x15#8 x y z)
  | .max x y z => some (formA 0x16#8 x y z)
  | .abs x y => some (formA 0x17#8 x y 0#8)
  | .neg x y => some (formA 0x18#8 x y 0#8)
  | .and x y z => some (formA 0x19#8 x y z)
  | .or x y z => some (formA 0x1A#8 x y z)
  | .xor x y z => some (formA 0x1B#8 x y z)
  | .not x y => some (formA 0x1C#8 x y 0#8)
  | .shl x y z => some (formA 0x1D#8 x y z)
  | .shr x y z => some (formA 0x1E#8 x y z)
  | .clz x y => some (formA 0x1F#8 x y 0#8)
  | .popc x y => some (formA 0x20#8 x y 0#8)
  | .bfe x y z => some (formA 0x21#8 x y z)
  | .bfi x y z => some (formA 0x22#8 x y z)
  | .addi x y z => some (formA 0x23#8 x y z)
  | .shli x y z => some (formA 0x24#8 x y (immField z))
  | .shri x y z => some (formA 0x25#8 x y (immField z))
  | .andi x y z => some (formA 0x26#8 x y z)
  | .muli x y z => some (formA 0x27#8 x y z)
  | .adda x y z => some (formA 0x28#8 (pairField x) (pairField y) z)
  | .lea2 x y z => some (formA 0x29#8 (pairField x) (pairField y) z)
  | .lea4 x y z => some (formA 0x2A#8 (pairField x) (pairField y) z)
  | .lea8 x y z => some (formA 0x2B#8 (pairField x) (pairField y) z)
  | .suba x y z => some (formA 0x2C#8 x (pairField y) (pairField z))
  | .cmpeq x y z => some (formA 0x40#8 (predField x) y z)
  | .cmpne x y z => some (formA 0x41#8 (predField x) y z)
  | .cmplt x y z => some (formA 0x42#8 (predField x) y z)
  | .cmple x y z => some (formA 0x43#8 (predField x) y z)
  | .cmpgt x y z => some (formA 0x44#8 (predField x) y z)
  | .cmpge x y z => some (formA 0x45#8 (predField x) y z)
  | .cmpun x y z => some (formA 0x46#8 (predField x) y z)
  | .pand x y z => some (formA 0x47#8 (predField x) (predField y) (predField z))
  | .por x y z => some (formA 0x48#8 (predField x) (predField y) (predField z))
  | .pxor x y z => some (formA 0x49#8 (predField x) (predField y) (predField z))
  | .pnot x y => some (formA 0x4A#8 (predField x) (predField y) 0#8)
  | .ballot x y => some (formA 0x4B#8 x (predField y) 0#8)
  | .pfrom x y => some (formA 0x4C#8 (predField x) y 0#8)
  | .shape x y => some (formA 0x4D#8 x y 0#8)
  | .expand x y => some (formA 0x4E#8 x y 0#8)
  | .laneid x => some (formA 0x4F#8 x 0#8 0#8)
  | .readlane x y z => some (formA 0x50#8 x y z)
  | .shfl x y z => some (formA 0x51#8 x y z)
  | .shflup x y z => some (formA 0x52#8 x y (immField z))
  | .shfldn x y z => some (formA 0x53#8 x y (immField z))
  | .shflx x y z => some (formA 0x54#8 x y (immField z))
  | .vconflict x y => some (formA 0x55#8 x y 0#8)
  | .scanadd x y => some (formA 0x56#8 x y 0#8)
  | .redadd x y => some (formA 0x57#8 x y 0#8)
  | .redmin x y => some (formA 0x58#8 x y 0#8)
  | .redmax x y => some (formA 0x59#8 x y 0#8)
  | .compact x y => some (formA 0x5A#8 x y 0#8)
  | .fadd x y z => some (formA 0x60#8 x y z)
  | .fsub x y z => some (formA 0x61#8 x y z)
  | .fmul x y z => some (formA 0x62#8 x y z)
  | .fma x y z => some (formA 0x63#8 x y z)
  | .fmin x y z => some (formA 0x64#8 x y z)
  | .fmax x y z => some (formA 0x65#8 x y z)
  | .fabs x y => some (formA 0x66#8 x y 0#8)
  | .fneg x y => some (formA 0x67#8 x y 0#8)
  | .frcp x y => some (formA 0x68#8 x y 0#8)
  | .frsq x y => some (formA 0x69#8 x y 0#8)
  | .fsqrt x y => some (formA 0x6A#8 x y 0#8)
  | .fexp2 x y => some (formA 0x6B#8 x y 0#8)
  | .flog2 x y => some (formA 0x6C#8 x y 0#8)
  | .fsinpi x y => some (formA 0x6D#8 x y 0#8)
  | .fcospi x y => some (formA 0x6E#8 x y 0#8)
  | .frnd x y => some (formA 0x6F#8 x y 0#8)
  | .fclass x y => some (formA 0x70#8 x y 0#8)
  | .fdot2 x y z => some (formA 0x71#8 x y z)
  | .cvt x y => some (formA 0x72#8 x y 0#8)
  | .pack x y z => some (formA 0x73#8 x y z)
  | .unpk x y z => some (formA 0x74#8 x y (immField z))
  | .fdiv x y z => some (formA 0x75#8 x y z)
  | .bra o => some (formD 0x80#8 o)
  | .brc o => some (formD 0x81#8 o)
  | .brca o => some (formD 0x82#8 o)
  | .call o => some (formD 0x83#8 o)
  | .callr x => some (formA 0x84#8 0#8 (pairField x) 0#8)
  | .ret => some (formA 0x85#8 0#8 0#8 0#8)
  | .jmpr x => some (formA 0x86#8 0#8 (pairField x) 0#8)
  | .ifLanes o => some (formD 0x87#8 o)
  | .elseLanes o => some (formD 0x88#8 o)
  | .endIf => some (formA 0x89#8 0#8 0#8 0#8)
  | .loopLanes o => some (formD 0x8A#8 o)
  | .breakLanes o => some (formD 0x8B#8 o)
  | .contLanes o => some (formD 0x8C#8 o)
  | .endLoop o => some (formD 0x8D#8 o)
  | .exit => some (formA 0x8E#8 0#8 0#8 0#8)
  | .trig => some (formA 0x8F#8 0#8 0#8 0#8)
  | .spawn x y => some (formA 0x90#8 0#8 (pairField x) y)
  | .suspend x => some (formA 0x91#8 0#8 (pairField x) 0#8)
  | .join x => some (formA 0x92#8 0#8 (pairField x) 0#8)
  | .deq x y => some (formA 0x93#8 x y 0#8)
  | .enq x y z => some (formA 0x94#8 x (pairField y) z)
  | .yield => some (formA 0x95#8 0#8 0#8 0#8)
  | .bar i => some (formC 0x96#8 0#8 (0#8 ++ immField i))
  | .ld x y z => some (formA 0xA0#8 x (pairField y) z)
  | .ldx x y z => some (formA 0xA1#8 x (pairField y) z)
  | .st x y z => some (formA 0xA2#8 x (pairField y) z)
  | .stx x y z => some (formA 0xA3#8 x (pairField y) z)
  | .lds x y z => some (formA 0xA4#8 x y z)
  | .sts x y z => some (formA 0xA5#8 x y z)
  | .pref x y => some (formA 0xA6#8 0#8 (pairField x) y)
  | .ldz x y z => some (formA 0xA7#8 x (pairField y) z)
  | .stz x y z => some (formA 0xA8#8 x (pairField y) z)
  | .aadd x y z => some (formA 0xA9#8 x (pairField y) z)
  | .amin x y z => some (formA 0xAA#8 x (pairField y) z)
  | .amax x y z => some (formA 0xAB#8 x (pairField y) z)
  | .aand x y z => some (formA 0xAC#8 x (pairField y) z)
  | .aor x y z => some (formA 0xAD#8 x (pairField y) z)
  | .axor x y z => some (formA 0xAE#8 x (pairField y) z)
  | .axchg x y z => some (formA 0xAF#8 x (pairField y) z)
  | .acas x y z => some (formA 0xB0#8 x (pairField y) z)
  | .fence o s e u => some (formC 0xB2#8 0#8 (0#8 ++ (bit u ++ bit e ++ s ++ o)))
  | .publish x => some (formA 0xB3#8 0#8 (pairField x) 0#8)
  | .arrive x y => some (formA 0xB4#8 x y 0#8)
  | .arrivetx x y z => some (formA 0xB5#8 x y z)
  | .waitph x y => some (formA 0xB6#8 0#8 x y)
  | .cpyset x r ch => some (formA 0xC0#8 0#8 (pairField x) (immField (ch ++ r)))
  | .cpygo x y => some (formA 0xC1#8 x 0#8 (immField y))
  | .waitid x y => some (formA 0xC2#8 0#8 x (immField y))
  | .rgather x y z => some (formA 0xC3#8 x (pairField y) z)
  | .rscat x y z => some (formA 0xC4#8 x (pairField y) z)
  | .rscatadd x y z => some (formA 0xC5#8 x (pairField y) z)
  | .coll x y z => some (formA 0xC6#8 x (pairField y) z)
  | .mma s k x y => some (formA 0xD0#8 (immField (k ++ s)) (pairField x) (pairField y))
  | .mmap s k x y => some (formA 0xD1#8 (immField (k ++ s)) (pairField x) (pairField y))
  | .mxfence x => some (formA 0xD2#8 x 0#8 0#8)
  | .mxwait x => some (formA 0xD3#8 0#8 x 0#8)
  | .acswap i => some (formC 0xD4#8 0#8 (0#8 ++ i))
  | .acld x y z => some (formA 0xD5#8 x y (predField z))
  | .acst x y z => some (formA 0xD6#8 x y (predField z))
  | .aczero i => some (formC 0xD7#8 0#8 (0#8 ++ i))
  | .acdrain x y => some (formA 0xD8#8 0#8 (pairField x) (predField y))
  | .sacc x y z => some (formA 0xD9#8 (predField x) y (predField z))
  | .cbload x y => some (formA 0xDA#8 0#8 (pairField x) (immField y))
  | .mxredx x y => some (formA 0xDB#8 (predField x) y 0#8)
  | .rcfence => some (formA 0xDC#8 0#8 0#8 0#8)
  | .taload x y => some (formA 0xE0#8 0#8 (pairField x) (immField y))
  | .taeval x y z => some (formA 0xE1#8 (predField x) (pairField y) z)
  | .leafgather x y z => some (formA 0xE2#8 x (pairField y) z)
  | .sgnproj x y z => some (formA 0xE3#8 x (pairField y) z)
  | .tlaunch x y z => some (formA 0xE8#8 x (pairField y) z)
  | .cqpop x => some (formA 0xE9#8 (pairField x) 0#8 0#8)
  | .cqwait x => some (formA 0xEA#8 0#8 x 0#8)
  | .ldlod x y z => some (formA 0xF0#8 (pairField x) (pairField y) z)
  | .sample x y z => some (formA 0xF1#8 x (pairField y) z)
  | .primemit x => some (formA 0xF2#8 0#8 (pairField x) 0#8)
  | .visrd x y => some (formA 0xF3#8 x y 0#8)
  | .trap i => some (formC 0xF8#8 0#8 i)
  | .brk i => some (formC 0xF9#8 0#8 i)
  | .rte => some (formA 0xFA#8 0#8 0#8 0#8)
  | .nfetch a => some (gtsForm 1#6 0#4 a 0#4 0#14)
  | .ndec d => some (gtsForm 2#6 d 0#4 0#4 0#14)
  | .nfield d a k => some (gtsForm 3#6 d a 0#4 k)
  | .nchild d a => some (gtsForm 4#6 d a 0#4 0#14)
  | .boxt d a => some (gtsForm 5#6 d a 0#4 0#14)
  | .trit d a => some (gtsForm 6#6 d a 0#4 0#14)
  | .frust d a => some (gtsForm 7#6 d a 0#4 0#14)
  | .kcmp d a m => some (gtsForm 8#6 d a 0#4 (0#13 ++ m))
  | .krange d a b => some (gtsForm 9#6 d a b 0#14)
  | .dist d a b m n => some (gtsForm 10#6 d a b (m ++ n))
  | .topk d a b => some (gtsForm 11#6 d a b 0#14)
  | .push a b => some (gtsForm 12#6 0#4 a b 0#14)
  | .pushm a b m => some (gtsForm 13#6 0#4 a b (0#13 ++ m))
  | .pop d => some (gtsForm 14#6 d 0#4 0#4 0#14)
  | .stkd d => some (gtsForm 15#6 d 0#4 0#4 0#14)
  | .ldq d x k => some (gtsForm 16#6 d 0#4 0#4 (0#9 ++ x ++ k))
  | .stq a x k => some (gtsForm 17#6 0#4 a 0#4 (0#9 ++ x ++ k))
  | .ldn d a k => some (gtsForm 18#6 d a 0#4 k)
  | .gtsAdd d a b => some (gtsForm 19#6 d a b 0#14)
  | .gtsAddImm d a k => some (gtsForm 19#6 d a 0#4 (1#1 ++ k))
  | .gtsSub d a b => some (gtsForm 20#6 d a b 0#14)
  | .gtsSubImm d a k => some (gtsForm 20#6 d a 0#4 (1#1 ++ k))
  | .gtsMul d a b => some (gtsForm 21#6 d a b 0#14)
  | .gtsMulImm d a k => some (gtsForm 21#6 d a 0#4 (1#1 ++ k))
  | .gtsAnd d a b => some (gtsForm 22#6 d a b 0#14)
  | .gtsAndImm d a k => some (gtsForm 22#6 d a 0#4 (1#1 ++ k))
  | .gtsOr d a b => some (gtsForm 23#6 d a b 0#14)
  | .gtsOrImm d a k => some (gtsForm 23#6 d a 0#4 (1#1 ++ k))
  | .gtsXor d a b => some (gtsForm 24#6 d a b 0#14)
  | .gtsXorImm d a k => some (gtsForm 24#6 d a 0#4 (1#1 ++ k))
  | .gtsShl d a b => some (gtsForm 25#6 d a b 0#14)
  | .gtsShlImm d a k => some (gtsForm 25#6 d a 0#4 (1#1 ++ k))
  | .gtsShr d a b => some (gtsForm 26#6 d a b 0#14)
  | .gtsShrImm d a k => some (gtsForm 26#6 d a 0#4 (1#1 ++ k))
  | .gtsMov d a => some (gtsForm 27#6 d a 0#4 0#14)
  | .gtsLdi d k => some (gtsForm 28#6 d 0#4 0#4 k)
  | .gtsCmp a b c => some (gtsForm 29#6 0#4 a b (0#11 ++ c))
  | .jump k => some (gtsForm 30#6 0#4 0#4 0#4 k)
  | .jumpF k => some (gtsForm 31#6 0#4 0#4 0#4 k)
  | .jumpNF k => some (gtsForm 32#6 0#4 0#4 0#4 k)
  | .emit a => some (gtsForm 33#6 0#4 a 0#4 0#14)
  | .hook a k => some (gtsForm 34#6 0#4 a 0#4 k)
  | .done a => some (gtsForm 35#6 0#4 a 0#4 0#14)
  | .cover a b => some (gtsForm 36#6 0#4 a b 0#14)
  | .handoff a => some (gtsForm 37#6 0#4 a 0#4 0#14)
  | _ => none

end Sys2Proof
end

