-- ==== Sys2Proof/Machine/Operands.lean ====
section
/-! DEFINITION. Reading and writing the registers of a wave: lane values whatever the storage shape, the shape rules of
R45 to R52, predicates, the element types of operands (R76, R82), and the row budget (R54, R212). -/

namespace Sys2Proof.Machine

/-- The register file of a wave. -/
abbrev Regs := Vector VReg 256

/-- A row of 32 lanes from a function of the lane number. -/
def rowOf (f : Nat → Word) : Vector Word 32 :=
  #v[f 0, f 1, f 2, f 3, f 4, f 5, f 6, f 7, f 8, f 9, f 10, f 11, f 12, f 13, f 14, f 15,
     f 16, f 17, f 18, f 19, f 20, f 21, f 22, f 23, f 24, f 25, f 26, f 27, f 28, f 29, f 30, f 31]

/-- A mask from a function of the lane number. -/
def maskOf (f : Nat → Bool) : Word := go 32
where
  /-- The low `n` lanes. -/
  go : Nat → Word
  | 0 => 0
  | n + 1 => if f n then go n ||| (1#32 <<< n) else go n

/-- The lanes of a mask, ascending. -/
def lanesOf (m : Word) : List Nat := (List.range 32).filter fun i => m.getLsbD i

/-- Lane `i` of a row. -/
def rowLane (row : Vector Word 32) (i : Nat) : Word := (row[i]?).getD 0

/-- Register `r`. -/
def rd (R : Regs) (r : Reg) : VReg := R[r.toNat]'(r.isLt)

/-- Register `r` replaced. -/
def wr (R : Regs) (r : Reg) (v : VReg) : Regs := R.set r.toNat v (r.isLt)

/-- The even register of the pair that holds `r` (R29). -/
def evenOf (r : Reg) : Reg := r &&& 0xFE#8
/-- The odd register of the pair that holds `r` (R29). -/
def oddOf (r : Reg) : Reg := r ||| 1#8
/-- The even register of pair `k`. -/
def pairReg (k : Pair) : Reg := BitVec.ofNat 8 (2 * k.toNat)
/-- The pair whose even register is `r`. -/
def regPair (r : Reg) : Pair := r.extractLsb' 1 7
/-- `n` registers after `r`. -/
def regAt (r : Reg) (n : Nat) : Reg := r + BitVec.ofNat 8 n

/-- base + i × stride, 64 bits, the stride sign-extended (R45). -/
def affine64 (slot : DWord) (stride : Word) (i : Nat) : DWord := slot + BitVec.ofNat 64 i * sext64 stride

/-- `Lane(v, i)` of R32, by R45 and R47. -/
def lane (R : Regs) (r : Reg) (i : Nat) : Word :=
  match rd R r with
  | .u x => x
  | .a slot =>
    match (if r.getLsbD 0 then VReg.u 0 else rd R (oddOf r)) with
    | .p stride => loWord (affine64 slot stride i)
    | _ => loWord slot + BitVec.ofNat 32 i * hiWord slot
  | .g row => rowLane row i
  | .p stride =>
    match rd R (evenOf r) with
    | .a slot => hiWord (affine64 slot stride i)
    | _ => 0

/-- `Pair(v, i)` of R32. -/
def pairLane (R : Regs) (k : Pair) (i : Nat) : DWord :=
  joinWords (lane R (pairReg k) i) (lane R (oddOf (pairReg k)) i)

/-- The shapes an operand can count as (R46, R47, R50). -/
inductive Shape where
  | u | a | g
  deriving DecidableEq, Repr

/-- Shape of a 32-bit operand (R47). -/
def shape32 (R : Regs) (r : Reg) : Shape :=
  match rd R r with
  | .u _ => .u
  | .a _ => .a
  | _ => .g

/-- Shape of a 64-bit operand (R46). -/
def shape64 (R : Regs) (k : Pair) : Shape :=
  match rd R (pairReg k), rd R (oddOf (pairReg k)) with
  | .u _, .u _ => .u
  | .a _, .p _ => .a
  | _, _ => .g

/-- All operands U give U; anything else gives G (R50, "any instruction not otherwise listed" and the G rows). -/
def Shape.plain (x y : Shape) : Shape := if x = .u ∧ y = .u then .u else .g

/-- U and A give A unless both are U (R50, `ADD`). -/
def Shape.sum (x y : Shape) : Shape :=
  match x, y with
  | .g, _ => .g
  | _, .g => .g
  | .u, .u => .u
  | _, _ => .a

/-- A with U gives A (R50, `MUL`). -/
def Shape.scaled (x y : Shape) : Shape :=
  match x, y with
  | .u, .u => .u
  | .a, .u => .a
  | .u, .a => .a
  | _, _ => .g

/-- A by U gives A (R50, `SHL`). -/
def Shape.shifted (x y : Shape) : Shape :=
  match x, y with
  | .u, .u => .u
  | .a, .u => .a
  | _, _ => .g

/-! ### Writing -/

/-- A 32-bit result in its shape (R50, R51). -/
def store32 (f : Nat → Word) (sh : Shape) : VReg :=
  match sh with
  | .u => .u (f 0)
  | .a => if f 1 - f 0 = 0 then .u (f 0) else .a (joinWords (f 0) (f 1 - f 0))
  | .g => .g (rowOf f)

/-- A 32-bit write to one register of an affine pair first separates the pair (R52). -/
def separate (R : Regs) (d : Reg) : Regs :=
  match rd R (evenOf d), rd R (oddOf d) with
  | .a slot, .p stride =>
    if d.getLsbD 0 then wr R (evenOf d) (.a (joinWords (loWord slot) stride))
    else wr R (oddOf d) (.g (rowOf (lane R (oddOf d))))
  | _, _ => R

/-- All 32 lanes (R48). -/
def fullMask : Word := 0xFFFFFFFF

/-- The writes of one instruction to a 32-bit destination: full by shape, partial to G with the old lanes kept, none
with no active lane (R48, R49). -/
def write32 (R : Regs) (act : Word) (d : Reg) (f : Nat → Word) (sh : Shape) : Regs :=
  if act = 0 then R
  else if act = fullMask then wr (separate R d) d (store32 f sh)
  else wr (separate R d) d (.g (rowOf fun i => if act.getLsbD i then f i else lane R d i))

/-- A value that an s32 represents. -/
def fitsS32 (x : DWord) : Bool := decide (sext64 (loWord x) = x)

/-- The writes of one instruction to a 64-bit destination (R46, R49, R50, R51). -/
def write64 (R : Regs) (act : Word) (k : Pair) (f : Nat → DWord) (sh : Shape) : Regs :=
  let e := pairReg k
  let o := oddOf e
  let both (lo hi : VReg) : Regs := wr (wr R e lo) o hi
  let rows (g : Nat → DWord) : Regs :=
    both (.g (rowOf fun i => loWord (g i))) (.g (rowOf fun i => hiWord (g i)))
  if act = 0 then R
  else if act = fullMask then
    match sh with
    | .u => both (.u (loWord (f 0))) (.u (hiWord (f 0)))
    | .a =>
      if f 1 - f 0 = 0 then both (.u (loWord (f 0))) (.u (hiWord (f 0)))
      else if fitsS32 (f 1 - f 0) then both (.a (f 0)) (.p (loWord (f 1 - f 0)))
      else rows f
    | .g => rows f
  else rows fun i => if act.getLsbD i then f i else pairLane R k i

/-! ### Element types of operands -/

/-- R82, by code. -/
def ETy.ofCode (c : BitVec 4) : ETy :=
  match c with
  | 0#4 => .n8 | 1#4 => .s8 | 2#4 => .n16 | 3#4 => .s16 | 4#4 => .n32 | 5#4 => .s32 | 6#4 => .n64 | 7#4 => .s64
  | 8#4 => .f16 | 9#4 => .bf16 | 10#4 => .f32 | 11#4 => .f64 | 12#4 => .e4m3 | 13#4 => .e5m2 | 14#4 => .cb4
  | _ => .b128

/-- The code of a type (R82). -/
def ETy.code : ETy → Nat
  | .n8 => 0 | .s8 => 1 | .n16 => 2 | .s16 => 3 | .n32 => 4 | .s32 => 5 | .n64 => 6 | .s64 => 7
  | .f16 => 8 | .bf16 => 9 | .f32 => 10 | .f64 => 11 | .e4m3 => 12 | .e5m2 => 13 | .cb4 => 14 | .b128 => 15

/-- Width of one element in bits (R82). -/
def ETy.width : ETy → Nat
  | .n8 | .s8 | .e4m3 | .e5m2 => 8
  | .n16 | .s16 | .f16 | .bf16 => 16
  | .n32 | .s32 | .f32 => 32
  | .n64 | .s64 | .f64 => 64
  | .cb4 => 4
  | .b128 => 128

/-- Bytes of an access (R151). -/
def ETy.bytes (t : ETy) : Nat := t.width / 8

/-- A 64-bit type, held in a pair (R76). -/
def ETy.is64 (t : ETy) : Bool := t.width == 64
/-- A signed integer type. -/
def ETy.signed : ETy → Bool
  | .s8 | .s16 | .s32 | .s64 => true
  | _ => false
/-- An integer type. -/
def ETy.isInt : ETy → Bool
  | .n8 | .s8 | .n16 | .s16 | .n32 | .s32 | .n64 | .s64 => true
  | _ => false
/-- An integer type of at most 32 bits. -/
def ETy.isInt32 : ETy → Bool
  | .n8 | .s8 | .n16 | .s16 | .n32 | .s32 => true
  | _ => false

/-- Check 4 for an operand of kind reg that the type widens (R76). -/
def widened (t : ETy) (r : Reg) : Bool :=
  match t.width with
  | 64 => !r.getLsbD 0
  | 128 => decide (r.toNat % 4 = 0) && decide (r.toNat ≤ 252)
  | _ => true

/-- Lane `i` of an operand under a type: the pair for a 64-bit type, else the register (R76). -/
def laneT (R : Regs) (t : ETy) (r : Reg) (i : Nat) : DWord :=
  if t.is64 then pairLane R (regPair r) i else zext64 (lane R r i)

/-- Shape of an operand under a type. -/
def shapeT (R : Regs) (t : ETy) (r : Reg) : Shape := if t.is64 then shape64 R (regPair r) else shape32 R r

/-- Write a destination under a type. -/
def writeT (R : Regs) (act : Word) (t : ETy) (d : Reg) (f : Nat → DWord) (sh : Shape) : Regs :=
  if t.is64 then write64 R act (regPair d) f sh else write32 R act d (fun i => loWord (f i)) sh

/-! ### Rows and the budget -/

/-- A register that holds a row. -/
def VReg.isRow : VReg → Bool
  | .g _ => true
  | _ => false

/-- Registers that hold a row (R45). -/
def rowCount (R : Regs) : Nat := (R.toList.filter VReg.isRow).length

/-- Drop repeated numbers, keeping the first of each. -/
def distinct (l : List Nat) : List Nat := go [] l
where
  /-- `seen` has been met already. -/
  go (seen : List Nat) : List Nat → List Nat
  | [] => []
  | x :: t => if seen.contains x then go seen t else x :: go (x :: seen) t

/-- The retained rows of the open log entries (R212). -/
def retainedRows (log : List LogEntry) : List Nat :=
  distinct (log.flatMap fun e => e.sources.filterMap fun x => x.retained)

/-- `GUSED`: rows held, retained rows included (R54, R212). -/
def Wave.gused (w : Wave) : Nat := rowCount w.regs + (retainedRows w.log).length

/-- Mark the logged G sources whose register a write changes (R212). -/
def retain (log : List LogEntry) (R R' : Regs) : List LogEntry :=
  let base := (retainedRows log).foldl Nat.max 0 / 256 * 256 + 256
  log.map fun e => { e with sources := e.sources.map fun x =>
    if x.retained.isNone && x.val.isRow && decide (rd R x.reg ≠ rd R' x.reg)
    then { x with retained := some (base + x.reg.toNat) } else x }

/-! ### The predicates and the mode word -/

/-- Predicate `p`; p0 reads all ones (R53). -/
def predBits (w : Wave) (p : Pred) : Word := if p = 0 then fullMask else w.preds[p.toNat]'(p.isLt)

/-- Write the active lanes of a predicate; a write to p0 is discarded (R53). -/
def writePred (w : Wave) (act : Word) (p : Pred) (f : Nat → Bool) : Wave :=
  if p = 0 then w
  else { w with preds := w.preds.set p.toNat ((predBits w p &&& ~~~act) ||| (maskOf f &&& act)) (p.isLt) }

/-- `WM` fields (R57). -/
def wmGP (wm : Word) : Pred := wm.extractLsb' 0 3
/-- GN (R57). -/
def wmGN (wm : Word) : Bool := wm.getLsbD 3
/-- ET (R57). -/
def wmET (wm : Word) : ETy := ETy.ofCode (wm.extractLsb' 4 4)
/-- ST (R57). -/
def wmST (wm : Word) : ETy := ETy.ofCode (wm.extractLsb' 8 4)
/-- RM (R57). -/
def wmRM (wm : Word) : BitVec 3 := wm.extractLsb' 12 3
/-- SAT (R57). -/
def wmSAT (wm : Word) : Bool := wm.getLsbD 15
/-- MO (R57). -/
def wmMO (wm : Word) : BitVec 3 := wm.extractLsb' 16 3
/-- SC (R57). -/
def wmSC (wm : Word) : BitVec 3 := wm.extractLsb' 19 3
/-- CH (R57). -/
def wmCH (wm : Word) : BitVec 2 := wm.extractLsb' 22 2

/-- A mode word with no reserved code and [31:24] zero (R57). -/
def wmLegal (wm : Word) : Bool :=
  decide ((wmRM wm).toNat ≤ 5) && decide ((wmMO wm).toNat ≤ 4) && decide ((wmSC wm).toNat ≤ 5)
    && decide (wm.extractLsb' 24 8 = 0)

/-- The lanes whose `Guard(i)` holds (R32). -/
def guardMask (w : Wave) : Word :=
  if wmGN w.wm then ~~~(predBits w (wmGP w.wm)) else predBits w (wmGP w.wm)

/-- The lanes for which `Active(i)` holds (R32, R63). -/
def activeMask (w : Wave) : Word := w.exec &&& guardMask w

/-- The lowest lane of a mask, 0 for an empty one: j of R133 and R459. -/
def lowestLane (m : Word) : Nat := go 32 0
where
  /-- Search the lanes from `i` on. -/
  go : Nat → Nat → Nat
  | 0, _ => 0
  | n + 1, i => if m.getLsbD i then i else go n (i + 1)

end Sys2Proof.Machine
end

