-- ==== Sys2Proof/Machine/Usage.lean ====
section
/-! DEFINITION. Which registers and predicates a wave instruction reads and writes, and to which class of R211 it
belongs: what the scoreboard (R62) and the operand log (R210, R211, R216) compare. -/

namespace Sys2Proof.Machine

/-- The registers an operand names under a type (R76). -/
def regsOf (t : ETy) (r : Reg) : List Reg :=
  match t.width with
  | 64 => [r, regAt r 1]
  | 128 => [r, regAt r 1, regAt r 2, regAt r 3]
  | _ => [r]

/-- The two registers of a pair. -/
def pairRegs (k : Pair) : List Reg := [pairReg k, oddOf (pairReg k)]

/-- A special register of width [63:0] (R60). -/
def sregWide (n : Nat) : Bool :=
  n == 0x003 || n == 0x004 || n == 0x009 || n == 0x010 || n == 0x011 || n == 0x030 || (decide (0x040 ≤ n) && decide (n ≤ 0x047))
    || n == 0x050 || n == 0x051 || n == 0x052 || n == 0x061 || n == 0x063

/-- Rows and columns of a matrix operand: 64 × K or K × 128 (R312). -/
def mxDims (isB : Bool) (k : Nat) : Nat × Nat := if isB then (k, 128) else (64, k)

/-- Registers a SRC 2 operand occupies (R314). -/
def mxRegs (isB : Bool) (t : ETy) (k : Nat) : Nat := (mxDims isB k).1 * (mxDims isB k).2 * t.bytes / 128

/-- The registers that an operand of `MMA` or `MMAP` reads: its descriptor, and the operand where SRC is 2 (R312, R314). -/
def Wave.mxSources (w : Wave) (isB : Bool) (t : ETy) (k : BitVec 4) (p : Pair) : List Reg :=
  let j := lowestLane (activeMask w)
  let base := (lane w.regs (pairReg p) j).toNat
  let n := mxRegs isB t (32 * (k.toNat + 1))
  if (lane w.regs (oddOf (pairReg p)) j).extractLsb' 28 4 = 2 ∧ base + n ≤ 256 then
    pairRegs p ++ (List.range n).map fun x => BitVec.ofNat 8 (base + x)
  else pairRegs p

/-- Register sources in field order, pairs as two (R62, R216). -/
def sourcesOf (w : Wave) (i : Instr) : List Reg :=
  let wm := w.wm
  let e := wmET wm
  match i with
  | .modev a => [a]
  | .setsr a n => if sregWide n.toNat then [a, regAt a 1] else [a]
  | .ldih d _ => [d]
  | .mov _ a | .abs _ a | .neg _ a | .not _ a | .clz _ a | .popc _ a | .addi _ a _ | .shli _ a _ | .shri _ a _ | .andi _ a _
  | .muli _ a _ | .expand _ a | .shflup _ a _ | .shfldn _ a _ | .shflx _ a _ | .vconflict _ a | .scanadd _ a | .redadd _ a
  | .redmin _ a | .redmax _ a | .compact _ a | .fabs _ a | .fneg _ a | .frcp _ a | .frsq _ a | .fsqrt _ a | .fexp2 _ a
  | .flog2 _ a | .fsinpi _ a | .fcospi _ a | .frnd _ a | .fclass _ a => regsOf e a
  | .sel _ a b | .add _ a b | .sub _ a b | .mul _ a b | .mulh _ a b | .min _ a b | .max _ a b | .and _ a b | .or _ a b
  | .xor _ a b | .cmpeq _ a b | .cmpne _ a b | .cmplt _ a b | .cmple _ a b | .cmpgt _ a b | .cmpge _ a b | .cmpun _ a b
  | .fadd _ a b | .fsub _ a b | .fmul _ a b | .fmin _ a b | .fmax _ a b | .fdiv _ a b => regsOf e a ++ regsOf e b
  | .mad d a b | .fma d a b => regsOf e d ++ regsOf e a ++ regsOf e b
  | .shl _ a b | .shr _ a b | .readlane _ a b | .shfl _ a b => regsOf e a ++ [b]
  | .bfe _ a b => [a, b]
  | .bfi d a b | .fdot2 d a b | .pack d a b => [d, a, b]
  | .adda _ a b | .lea2 _ a b | .lea4 _ a b | .lea8 _ a b => pairRegs a ++ [b]
  | .suba _ a b => pairRegs a ++ pairRegs b
  | .pfrom _ a | .shape _ a | .unpk _ a _ => [a]
  | .cvt _ a => regsOf (wmST wm) a
  | .callr a | .jmpr a | .suspend a | .join a | .publish a | .pref a _ | .cpyset a _ _ | .acdrain a _ | .cbload a _
  | .taload a _ | .primemit a | .ld _ a _ => pairRegs a
  | .spawn a b | .enq _ a b | .ldx _ a b | .ldz _ a b | .rgather _ a b | .taeval _ a b | .tlaunch _ a b | .ldlod _ a b =>
    pairRegs a ++ [b]
  | .sample _ a b => pairRegs a ++ (List.range 4).map fun n => regAt b n
  | .leafgather d a b | .sgnproj d a b => [d] ++ pairRegs a ++ [b]
  | .deq _ q => [q]
  | .st d a _ => regsOf e d ++ pairRegs a
  | .stx d a b | .rscat d a b | .rscatadd d a b | .coll d a b => regsOf e d ++ pairRegs a ++ [b]
  | .stz d a b => [d] ++ pairRegs a ++ [b]
  | .lds _ a _ | .arrive _ a | .waitid a _ | .mxwait a | .acld _ a _ | .sacc _ a _ | .mxredx _ a | .cqwait a | .visrd _ a => [a]
  | .sts d a _ => regsOf e d ++ [a]
  | .acst d a _ => [d, a]
  | .aadd _ a b | .amin _ a b | .amax _ a b | .aand _ a b | .aor _ a b | .axor _ a b | .axchg _ a b => pairRegs a ++ regsOf e b
  | .acas d a b => regsOf e d ++ pairRegs a ++ regsOf e b
  | .arrivetx _ a b | .waitph a b => [a, b]
  | .mma _ k a b | .mmap _ k a b => w.mxSources false e k a ++ w.mxSources true (wmST wm) k b
  | _ => []

/-- Register destinations. -/
def destsOf (wm : Word) (i : Instr) : List Reg :=
  let e := wmET wm
  match i with
  | .getsr d n => if sregWide n.toNat then [d, regAt d 1] else [d]
  | .ldi d _ | .ldih d _ | .ballot d _ | .shape d _ | .laneid d | .suba d _ _ | .bfe d _ _ | .bfi d _ _ | .fdot2 d _ _
  | .pack d _ _ | .unpk d _ _ | .enq d _ _ | .ldz d _ _ | .arrive d _ | .arrivetx d _ _ | .cpygo d _ | .mxfence d | .acld d _ _
  | .leafgather d _ _ | .sgnproj d _ _ | .tlaunch d _ _ | .sample d _ _ | .visrd d _ => [d]
  | .pcrel d _ | .cbase d _ | .adda d _ _ | .lea2 d _ _ | .lea4 d _ _ | .lea8 d _ _ | .ldlod d _ _ => pairRegs d
  | .mov d _ | .sel d _ _ | .add d _ _ | .sub d _ _ | .mul d _ _ | .mulh d _ _ | .mad d _ _ | .min d _ _ | .max d _ _
  | .abs d _ | .neg d _ | .and d _ _ | .or d _ _ | .xor d _ _ | .not d _ | .shl d _ _ | .shr d _ _ | .clz d _ | .popc d _
  | .addi d _ _ | .shli d _ _ | .shri d _ _ | .andi d _ _ | .muli d _ _ | .expand d _ | .readlane d _ _ | .shfl d _ _
  | .shflup d _ _ | .shfldn d _ _ | .shflx d _ _ | .vconflict d _ | .scanadd d _ | .redadd d _ | .redmin d _ | .redmax d _
  | .compact d _ | .fadd d _ _ | .fsub d _ _ | .fmul d _ _ | .fma d _ _ | .fmin d _ _ | .fmax d _ _ | .fabs d _ | .fneg d _
  | .frcp d _ | .frsq d _ | .fsqrt d _ | .fexp2 d _ | .flog2 d _ | .fsinpi d _ | .fcospi d _ | .frnd d _ | .fclass d _
  | .cvt d _ | .fdiv d _ _ | .ld d _ _ | .ldx d _ _ | .lds d _ _ | .aadd d _ _ | .amin d _ _ | .amax d _ _ | .aand d _ _
  | .aor d _ _ | .axor d _ _ | .axchg d _ _ | .acas d _ _ | .rgather d _ _ => regsOf e d
  | .deq d _ => (List.range 16).map fun n => regAt d n
  | .cqpop d => (List.range 4).map fun n => regAt (pairReg d) n
  | _ => []

/-- Reads the guard (R58, R77). -/
def readsGuard : Instr → Bool
  | .nop | .model _ | .modeh _ | .modev _ | .bra _ | .call _ | .callr _ | .ret | .jmpr _ | .elseLanes _ | .endIf | .endLoop _
  | .trig | .suspend _ | .join _ | .deq _ _ | .yield | .bar _ | .fence _ _ _ _ | .publish _ | .arrive _ _ | .arrivetx _ _ _
  | .waitph _ _ | .cpyset _ _ _ | .cpygo _ _ | .waitid _ _ | .brk _ | .rte | .cqpop _ | .cqwait _ => false
  | _ => true

/-- Predicates read beyond the guard. -/
def predSources : Instr → List Pred
  | .pand _ a b | .por _ a b | .pxor _ a b => [a, b]
  | .pnot _ a | .ballot _ a => [a]
  | _ => []

/-- Predicates written. -/
def predDests : Instr → List Pred
  | .cmpeq p _ _ | .cmpne p _ _ | .cmplt p _ _ | .cmple p _ _ | .cmpgt p _ _ | .cmpge p _ _ | .cmpun p _ _ | .pand p _ _
  | .por p _ _ | .pxor p _ _ | .pnot p _ | .pfrom p _ => [p]
  | _ => []

/-- The classes of R211. -/
inductive IssueClass where
  /-- No memory, engine or suspension: issues past open log entries. -/
  | free
  /-- Writes `EXEC` or the mask stack. -/
  | mask
  /-- A plain load or store. -/
  | plain
  /-- Acts on the pair's matrix unit, which takes a wave's operations in the order they issued (R307): waits for the wave's open
  matrix operations (assumption 32). -/
  | matrix
  /-- Clears the record cache: waits for the open uses of a record, which come before it (R330, R355). -/
  | records
  /-- Waits for every open entry. -/
  | ordered
  deriving DecidableEq, Repr

/-- The `EXIT` may end the wave, which makes it a suspension point (R139, R141): no lane stays in `EXEC` or in the mask-stack
entries held in hardware. -/
def Wave.exits (w : Wave) : Bool :=
  let e := activeMask w
  let rest (x : DWord) : Bool := decide (loWord x &&& ~~~e = 0) && decide (hiWord x &&& ~~~e = 0)
  decide (w.exec &&& ~~~e = 0) && w.masks.all rest

/-- R211, second column of the table by the first. -/
def issueClass (w : Wave) (i : Instr) : IssueClass :=
  match i with
  | .ifLanes _ | .elseLanes _ | .endIf | .loopLanes _ | .breakLanes _ | .contLanes _ | .endLoop _ | .cqpop _ => .mask
  | .ld _ _ _ | .ldx _ _ _ | .st _ _ _ | .stx _ _ _ | .lds _ _ _ | .sts _ _ _ => .plain
  | .exit => if w.exits then .ordered else .mask
  | .suspend _ | .join _ | .deq _ _ => if w.exec = 0 then .free else .ordered
  | .spawn _ _ | .enq _ _ _ | .bar _ | .pref _ _ | .ldz _ _ _ | .stz _ _ _ | .aadd _ _ _ | .amin _ _ _ | .amax _ _ _
  | .aand _ _ _ | .aor _ _ _ | .axor _ _ _ | .axchg _ _ _ | .acas _ _ _ | .publish _ | .arrive _ _ | .arrivetx _ _ _
  | .waitph _ _ | .cpygo _ _ | .rgather _ _ _ | .rscat _ _ _ | .rscatadd _ _ _ | .coll _ _ _ | .mma _ _ _ _ | .mmap _ _ _ _
  | .acdrain _ _ | .taeval _ _ _ | .tlaunch _ _ _ | .trap _ | .brk _ | .rte | .trig | .cbload _ _ | .taload _ _
  | .leafgather _ _ _ | .sgnproj _ _ _ | .ldlod _ _ _ | .sample _ _ _ | .visrd _ _ | .primemit _ => .ordered
  | .mxfence _ | .mxwait _ | .aczero _ | .acswap _ | .acld _ _ _ | .acst _ _ _ | .sacc _ _ _ | .mxredx _ _ => .matrix
  | .rcfence => .records
  | .fence order _ _ _ => if order = 0 then .free else .ordered
  | _ => .free

/-- An operation that the unit holds from its issue on (R307, R331, R340). -/
def onMatrix : Instr → Bool
  | .mma _ _ _ _ | .mmap _ _ _ _ | .acdrain _ _ | .taload _ _ | .taeval _ _ _ | .cbload _ _ | .leafgather _ _ _ => true
  | _ => false

/-- An instruction that names a record of the block's cache (R330). -/
def usesRecord : Instr → Bool
  | .mma _ _ _ _ | .mmap _ _ _ _ | .acdrain _ _ | .cpygo _ _ => true
  | _ => false

/-- The L1 of the core may keep its lines past an instruction: it reads no memory, or is a load, store or prefetch, which say
themselves what the L1 keeps. Before any other the L1 gives them up, so that nothing older than what the instruction reads or acquires
is read after it (R178, R186; a line leaves the L1 at any time, assumption 13). -/
def keepsL1 (w : Wave) (i : Instr) : Bool :=
  match i with
  | .cqpop _ | .cqwait _ | .waitid _ _ | .mxwait _ => false
  | .pref _ _ => true
  | i => issueClass w i != .ordered

/-- A register that an instruction reads, other than as an operand that carries poison on (R336), holds a poisoned row: consumed
poison (R428, R429, assumption 60). -/
def Wave.struck (w : Wave) (i : Instr) : Bool :=
  !w.badRows.isEmpty && (match i with
    | .mma _ _ _ _ => false
    | .mmap _ _ _ _ => false
    | i => (sourcesOf w i).any fun r => (rd w.regs r).isRow && w.badRows.contains r)

end Sys2Proof.Machine
end

