-- ==== Sys2Proof/Machine/Ops.lean ====
section
/-! DEFINITION. The named operations over the state: reaching its parts, translation (R411 to R418), windows and
access checks (R152, R172 to R176), loads and stores with the stores that are not yet performed (R177, R178), rings,
error records and events, and termination (R430). -/

namespace Sys2Proof.Machine

/-! ### Reaching the parts of the state -/

/-- The wave in a slot. -/
def State.wave (s : State) (k : Nat) : Option Wave := Assoc.find s.waves k
/-- Replace the wave in a slot. -/
def State.setWave (s : State) (k : Nat) (w : Wave) : State := { s with waves := Assoc.set s.waves k w }
/-- A block. -/
def State.block (s : State) (b : Nat) : Option Block := Assoc.find s.blocks b
/-- Replace a block. -/
def State.setBlock (s : State) (b : Nat) (x : Block) : State := { s with blocks := Assoc.set s.blocks b x }
/-- Change a block where there is one. -/
def State.onBlock (s : State) (b : Nat) (f : Block → Block) : State :=
  match s.block b with
  | some x => s.setBlock b (f x)
  | none => s
/-- A logical core. -/
def State.core (s : State) (c : Nat) : CoreState := (Assoc.find s.cores c).getD {}
/-- Replace a core. -/
def State.setCore (s : State) (c : Nat) (x : CoreState) : State := { s with cores := Assoc.set s.cores c x }
/-- A pair's matrix unit. -/
def State.unit (s : State) (p : Nat) : MatrixUnit := (Assoc.find s.units p).getD {}
/-- Replace a matrix unit. -/
def State.setUnit (s : State) (p : Nat) (x : MatrixUnit) : State := { s with units := Assoc.set s.units p x }
/-- A pavilion. -/
def State.pav (s : State) (p : Nat) : Pavilion := (Assoc.find s.pavs p).getD {}
/-- Replace a pavilion. -/
def State.setPav (s : State) (p : Nat) (x : Pavilion) : State := { s with pavs := Assoc.set s.pavs p x }
/-- A queue's hardware state. -/
def State.queue (s : State) (pav q : Nat) : QueueState := (Assoc.find (s.pav pav).queues q).getD {}
/-- Replace a queue's hardware state. -/
def State.setQueue (s : State) (pav q : Nat) (x : QueueState) : State :=
  s.setPav pav { s.pav pav with queues := Assoc.set (s.pav pav).queues q x }
/-- A queue's descriptor (R396). -/
def State.desc (s : State) (pav q : Nat) : Line := (Assoc.find (s.pav pav).desc q).getD 0
/-- Replace a queue's descriptor. -/
def State.setDesc (s : State) (pav q : Nat) (x : Line) : State :=
  s.setPav pav { s.pav pav with desc := Assoc.set (s.pav pav).desc q x }
/-- A value of PCTX names a context (R447). -/
def namesCtx (pctx : BitVec 16) (ctx : Nat) : Bool := pctx == 0xFFFF || decide (pctx.toNat = ctx)
/-- A pre-emption holds the work of a context (R219, R410, R447). -/
def State.paused (s : State) (pav ctx : Nat) : Bool :=
  let p := s.pav pav
  (p.busy && namesCtx p.goCtx ctx) || p.savedCtxs.any fun x => namesCtx x ctx
/-- Emit something that leaves the device. -/
def State.emit (s : State) (m : OutMsg) : State := { s with out := s.out ++ [m] }
/-- A number not used before. -/
def State.bump (s : State) : State := { s with fresh := s.fresh + 1 }

/-- The physical pair that hosts a logical pair; none for an unbound one (R433). -/
def State.hostOf (s : State) (p : Nat) : Option Nat :=
  match Assoc.find s.hosts p with
  | some h => h
  | none => some p
/-- The physical cores of a logical core serve another pair too (R434). -/
def State.shares (s : State) (core : Nat) : Bool :=
  match s.hostOf (core / 2) with
  | none => false
  | some h => (List.range 112).any fun q => q != core / 2 && decide (s.hostOf q = some h)
/-- Wave slots of a logical core (R36, R434). -/
def State.waveSlots (s : State) (core : Nat) : Nat := if s.shares core then 16 else 32
/-- Walkers of a logical core (R230, R434). -/
def State.walkerSlots (s : State) (core : Nat) : Nat := if s.shares core then 32 else 64

/-- The die of a logical core: cores 0 to 111 on die 0 (R35, R433). -/
def dieOf (c : Nat) : Nat := if c < 112 then 0 else 1
/-- The pair of a logical core; its leader is the even core (R305). -/
def pairOf (c : Nat) : Nat := c / 2
/-- The key of a context. -/
def ctxKey (pav ctx : Nat) : Nat := pav * 65536 + ctx
/-- The core of a wave slot. -/
def coreOf (k : Nat) : Nat := k / 32

/-- Remove the elements that satisfy `f`. -/
def dropIf {α : Type} (f : α → Bool) (l : List α) : List α := l.filter fun x => !f x

/-- A list is not empty. -/
def nonEmpty {α : Type} (l : List α) : Bool := !l.isEmpty

/-! ### Context descriptors (R449) -/

/-- Address of a context's descriptor. -/
def State.descAddr (s : State) (pav ctx : Nat) : Nat := (s.pav pav).ctxtab.toNat + 256 * ctx
/-- A field of a context's descriptor, as device memory holds it. -/
def State.ctxField (s : State) (pav ctx off n : Nat) : Nat := s.mem.readLE (s.descAddr pav ctx + off) n
/-- What the device has latched of a context (R450). -/
def State.ctx (s : State) (pav ctx : Nat) : Option CtxState := Assoc.find s.ctxs (ctxKey pav ctx)
/-- The latched debuggable bit (R443). -/
def State.debuggable (s : State) (pav ctx : Nat) : Bool :=
  match s.ctx pav ctx with
  | some c => c.debuggable
  | none => false
/-- `CTXBASE` of a block: as its admission took it; for a query without a block, the descriptor's (R60, R412, R450). -/
def State.ctxBase (s : State) (block pav ctx : Nat) : DWord :=
  match s.block block with
  | some b => b.ctxBase
  | none => BitVec.ofNat 64 (s.ctxField pav ctx 104 8)
/-- FLAGS.VALID of a context that may run (R449, R450). -/
def State.ctxValid (s : State) (pav ctx : Nat) : Bool :=
  decide (ctx < (s.pav pav).ctxcount.toNat) && decide (ctx ≠ 0xFFFF) && decide (s.ctxField pav ctx 124 1 % 2 = 1)

/-- A feature the driver has accepted (R453). -/
def State.accepted (s : State) (bit : Nat) : Bool := s.pf.drvfeat.getLsbD bit

/-! ### Physical addresses (R418) -/

/-- What a physical address names. -/
inductive PaKind where
  | device | host | partner | nothing
  deriving DecidableEq, Repr

/-- R418; host memory is reachable once the driver has accepted DEVFEAT bit 5 (R453). -/
def State.paKind (s : State) (pa : Nat) : PaKind :=
  if pa < 0x2000000000 then .device
  else if 0x4000000000000 ≤ pa ∧ pa < 0x8000000000000 then (if s.accepted 5 then .host else .nothing)
  else if 0x8000000000000 ≤ pa ∧ pa < 0x9000000000000 then .partner
  else .nothing

/-- The address of a poisoned line of device memory that some bytes from an address on touch (R429). -/
def State.poisonedLine (s : State) (a n : Nat) : Option Nat :=
  (((List.range (n / 64 + 2)).map fun i => a / 64 + i).find? fun l => s.poisoned.contains l && decide (l * 64 < a + n)).map
    fun l => l * 64

/-- The poisoned line that a context's descriptor lies on (R429, R449). -/
def State.descPoison (s : State) (pav ctx : Nat) : Option Nat :=
  if ctx < (s.pav pav).ctxcount.toNat then s.poisonedLine (s.descAddr pav ctx) 256 else none

/-! ### Translation (R411 to R417) -/

/-- The page an address lies on: its virtual base and size, its frame, and its attributes (R411, R416). -/
structure Page where
  vbase : Nat
  size : Nat
  frame : Nat
  r : Bool
  w : Bool
  x : Bool
  ord : BitVec 2
  cache : BitVec 2
  pub : Bool
  por : Bool
  deriving DecidableEq, Repr

/-- The outcome of a translation: a page, V = 0 (resolvable, R419), or an unresolvable fault. -/
inductive Xlat where
  | ok (p : Page)
  | fault
  | bad
  deriving DecidableEq, Repr

/-- The mapping of a context is privileged (R417): by the latched flag, or the descriptor's before one is latched (R402). -/
def State.drAllowed (s : State) (pav ctx : Nat) : Bool :=
  s.accepted 1 && s.pf.drallow.getLsbD pav &&
    match s.ctx pav ctx with
    | some c => c.drmap
    | none => decide (s.ctxField pav ctx 124 1 / 16 % 2 = 1)

/-- FABKEY of a context: the latched one, or the descriptor's before one is latched (R402, R423, R450). -/
def State.fabKey (s : State) (pav ctx : Nat) : Word :=
  match s.ctx pav ctx with
  | some c => c.fabkey
  | none => BitVec.ofNat 32 (s.ctxField pav ctx 144 4)

/-- A PTE or sub-page entry of a page of `size` bytes at `vbase` (R416, R301). -/
def State.entry (s : State) (pav ctx vbase size : Nat) (e : BitVec 64) : Xlat :=
  let frame := (e.extractLsb' 10 42).toNat * 1024
  let ord := e.extractLsb' 4 2
  let pub := e.getLsbD 8
  if !e.getLsbD 0 then .fault
  else if e.extractLsb' 6 2 = 3 ∨ e.extractLsb' 52 12 ≠ 0 then .bad
  else if frame % size ≠ 0 then .bad
  else if ord = 3 ∧ (!s.drAllowed pav ctx ∨ 0x1000000000 ≤ frame % 0x2000000000) then .bad
  else if pub ∧ frame % (2 * size) ≠ 0 then .bad
  else .ok { vbase := vbase, size := size, frame := frame, r := e.getLsbD 1, w := e.getLsbD 2, x := e.getLsbD 3,
             ord := ord, cache := e.extractLsb' 6 2, pub := pub, por := e.getLsbD 9 }

/-- A directory entry (R415): the next table's address; a table outside device memory or a non-zero must-be-zero bit is
unresolvable (assumption 15). -/
def State.directory (s : State) (table index : Nat) (k : Nat → Xlat) : Xlat :=
  let e := BitVec.ofNat 64 (s.mem.readLE (table + 8 * index) 8)
  if s.paKind (table + 8 * index) ≠ .device then .bad
  else if !e.getLsbD 0 then .fault
  else if e.extractLsb' 1 12 ≠ 0 ∨ e.extractLsb' 52 12 ≠ 0 then .bad
  else k ((e.extractLsb' 13 39).toNat * 8192)

/-- The three-level walk (R415). -/
def State.walk (s : State) (pav ctx va : Nat) : Xlat :=
  s.directory (s.ctxField pav ctx 0 8) (va / 2 ^ 41 % 2048) fun t2 =>
  s.directory t2 (va / 2 ^ 31 % 1024) fun t3 =>
    let a := t3 + 8 * (va / 2 ^ 21 % 1024)
    if s.paKind a ≠ .device then .bad
    else s.entry pav ctx (va / 0x200000 * 0x200000) 0x200000 (BitVec.ofNat 64 (s.mem.readLE a 8))

/-- A region that is enabled and contains the address (R413). -/
def regionHolds (r : DWord) (va : Nat) : Bool :=
  let base := (r.extractLsb' 16 36).toNat * 65536
  r.getLsbD 0 && decide (r.extractLsb' 1 3 = 0) && decide (r.extractLsb' 52 12 = 0) && decide (base ≤ va)
    && decide (va < base + ((r.extractLsb' 4 12).toNat + 1) * 65536)

/-- The lowest region that holds the address (R411). -/
def regionOf (c : CoreState) (va : Nat) : Option Nat := (List.range 8).find? fun k => regionHolds (c.region[k]?.getD 0) va

/-- The sub-page entry of region `k` (R414). -/
def State.subPage (s : State) (c : CoreState) (pav ctx k va : Nat) : Xlat :=
  let base := ((c.region[k]?.getD 0).extractLsb' 16 36).toNat * 65536
  let n := (va - base) / 1024
  let a := s.ctxField pav ctx 8 8 + k * 0x200000 + 8 * n
  if s.paKind a ≠ .device then .bad
  else s.entry pav ctx (base + 1024 * n) 1024 (BitVec.ofNat 64 (s.mem.readLE a 8))

/-- The address lies in the heap triple (R411). -/
def inHeap (c : CoreState) (va : Nat) : Bool :=
  decide (c.heapLimit ≠ 0) && decide (c.heapBase.toNat ≤ va) && decide (va < c.heapBase.toNat + c.heapLimit.toNat)

/-- R411: the heap triple, then the regions, then the tables. Triple and regions are the core's as they stand, also for a query of the
partner card on a core that holds no block of its context (R412, R248; DESIGN CHOICE, assumption 38). -/
def State.translate (s : State) (core pav ctx va : Nat) : Xlat :=
  let c := s.core core
  if inHeap c va then
    .ok { vbase := c.heapBase.toNat, size := c.heapLimit.toNat, frame := (c.heapBase.toNat + c.heapOffset.toNat) % 2 ^ 52,
          r := true, w := true, x := false, ord := 1, cache := 0, pub := false, por := false }
  else match regionOf c va with
    | some k => s.subPage c pav ctx k va
    | none => s.walk pav ctx va

/-- Physical address of a byte of a page, before a publish window's select bit. -/
def Page.pa (p : Page) (va : Nat) : Nat := (p.frame + (va - p.vbase)) % 2 ^ 52

/-- The visible backing of a publish window (R301, R302). -/
def State.visiblePa (s : State) (p : Page) (va : Nat) : Nat :=
  if p.pub ∧ s.sel.contains p.frame then p.pa va + p.size else p.pa va

/-- The shadow backing of a publish window; the page itself elsewhere (R302). -/
def State.shadowPa (s : State) (p : Page) (va : Nat) : Nat :=
  if p.pub ∧ !s.sel.contains p.frame then p.pa va + p.size else p.pa va

/-- The permission an access kind needs (R416). -/
def Page.allows (p : Page) : AccessKind → Bool
  | .read => p.r
  | .write => p.w
  | .atomic => p.r && p.w
  | .fetch => p.x
  | .tableRead => p.r

/-! ### Who accesses -/

/-- An agent that accesses memory: its core, its context, its block and the number its stores are ordered under. -/
structure Who where
  core : Nat
  pav : Nat
  ctx : Nat
  block : Nat
  uid : Nat
  deriving DecidableEq, Repr

/-- Why an access fails, in the order of R152. -/
inductive AccFail where
  | window | cross | bounds | unaligned | bad
  | fault (va : Nat)
  | poison
  deriving DecidableEq, Repr

/-- A run of bytes of one access in one place. -/
structure Span where
  key : Nat
  len : Nat
  ord : BitVec 2
  cache : BitVec 2
  pub : Bool
  por : Bool
  partner : Bool
  /-- The window is a scratchpad. -/
  scratch : Bool
  va : Nat
  /-- Bytes of the page whose cached translation gave the span; 0 for the heap triple and the scratchpads, which have none
  (R411, R421). -/
  page : Nat := 0
  /-- The partner card's answer, where the bytes lie there and it has come (R426). -/
  reply : Option FabricReply := none
  deriving DecidableEq, Repr

/-- First address past the own-scratch and the peer-scratch windows (R172). -/
def globalEnd : Nat := 0x10000000000000
/-- First address of the peer-scratch window of core 0 (R172). -/
def peerBase : Nat := 0x11000000000000

/-- Memory key of a scratchpad byte of a core. -/
def scratchKey (core o : Nat) : Nat := peerBase + core * 0x40000 + o

/-- The windows of R172. -/
inductive Window where
  | global | own | peer (c : Nat)
  deriving DecidableEq, Repr

/-- Check 1 of R152: the window of the first byte. -/
def windowOf (va : Nat) : Option Window :=
  if va < globalEnd then some .global
  else if va < globalEnd + 0x40000 then some .own
  else if peerBase ≤ va ∧ va < peerBase + 224 * 0x40000 then some (.peer ((va - peerBase) / 0x40000))
  else none

/-- First address past a window. -/
def Window.limit : Window → Nat
  | .global => globalEnd
  | .own => globalEnd + 0x40000
  | .peer c => peerBase + (c + 1) * 0x40000

/-- The half of a block on a core. -/
def Block.half (b : Block) (core : Nat) : Option Half := b.halves.find? fun h => h.core == core

/-- The allocation on core `c` that a peer address names (R175): base within the core's scratchpad and size. -/
def State.peerAllocation (s : State) (blk : Nat) (c : Nat) : Option (Nat × Nat) :=
  match s.block blk with
  | none => none
  | some b =>
    match b.half c with
    | some h => some (h.base, b.scratch)
    | none =>
      if (match Assoc.find s.grids b.grid with | some g => g.isGrid | none => false) then
        let same := s.blocks.filterMap fun kb =>
          if kb.2.grid = b.grid then (kb.2.half c).map fun h => (kb.2.linear, h.base, kb.2.scratch) else none
        same.foldl (fun best x => match best, x with
          | none, (l, r) => some (l, r)
          | some (l0, r0), (l, r) => if l < l0 then some (l, r) else some (l0, r0)) none
          |>.map fun y => y.2
      else none

/-- The bytes of an allocation that a core's window reaches: on one whose physical core serves two, offsets from 128 KiB on
are out of bounds (R434). -/
def State.windowSize (s : State) (core size : Nat) : Nat := if s.shares core then Nat.min size 0x20000 else size

/-- The allocation a scratch window reaches, and the offset of the address in it (R174, R175). -/
def State.scratchTarget (s : State) (who : Who) (win : Window) (va : Nat) : Option (Nat × Nat × Nat × Nat) :=
  let found (c : Nat) : Option (Nat × Nat) := (s.peerAllocation who.block c).map fun a => (a.1, s.windowSize c a.2)
  match win with
  | .global => none
  | .own => (found who.core).map fun a => (who.core, a.1, a.2, va - globalEnd)
  | .peer c => (found c).map fun a => (c, a.1, a.2, va - peerBase - c * 0x40000)

/-- Bytes from `va` on that one translation covers: page, region and heap boundaries are page boundaries (R183, R411),
and every boundary but the heap's is a multiple of 1,024. -/
def runLen (c : CoreState) (va : Nat) : Nat :=
  let k := 1024 - va % 1024
  let hb := c.heapBase.toNat
  let he := hb + c.heapLimit.toNat
  if c.heapLimit = 0 then k
  else if va < hb then Nat.min k (hb - va)
  else if va < he then Nat.min k (he - va)
  else k

/-- Bytes from a physical address on to the end of its 64 GiB block: every row of R418, every replica and every import entry
begins and ends at such a boundary. -/
def paRun (pa : Nat) : Nat := 0x1000000000 - pa % 0x1000000000

/-- The spans of `n` bytes from `va` on in the global window: check 4 of R152. Loads and wave stores reach the visible
backing of a publish window, engine writes the shadow one (R302). -/
def State.globalSpans (s : State) (who : Who) (kind : AccessKind) (shadow : Bool) : Nat → Nat → Nat → Except AccFail (List Span)
  | 0, _, _ => .ok []
  | fuel + 1, va, n =>
    if n = 0 then .ok []
    else
      match s.translate who.core who.pav who.ctx va with
      | .fault => .error (.fault va)
      | .bad => .error .bad
      | .ok p =>
        let pa := if shadow then s.shadowPa p va else s.visiblePa p va
        let len := Nat.min (Nat.min n (runLen (s.core who.core) va)) (paRun pa)
        let key := if p.ord = 3 ∧ dieOf who.core = 1 then pa + 0x1000000000 else pa
        if !p.allows kind then .error .bad
        else match s.paKind pa with
          | .nothing => .error .bad
          | k =>
            match s.globalSpans who kind shadow fuel (va + len) (n - len) with
            | .error e => .error e
            | .ok t => .ok ({ key := key, len := len, ord := p.ord, cache := p.cache, pub := p.pub, por := p.por,
                              partner := decide (k = .partner), scratch := false, va := va,
                              page := if inHeap (s.core who.core) va then 0 else p.size } :: t)

/-- Checks 1 to 4 of R152 on one access of `n` bytes, in their order, and the spans it covers. -/
def State.resolve (s : State) (who : Who) (kind : AccessKind) (shadow : Bool) (va n : Nat) : Except AccFail (List Span) :=
  match windowOf va with
  | none => .error .window
  | some win =>
    if win.limit < va + n then .error .cross
    else match win with
      | .global => s.globalSpans who kind shadow (n + 1) va n
      | _ =>
        match s.scratchTarget who win va with
        | none => .error .bounds
        | some (c, base, size, o) =>
          if size < o + n then .error .bounds
          else .ok [{ key := scratchKey c (base + o), len := n, ord := 1, cache := 0, pub := false, por := false,
                      partner := false, scratch := true, va := va }]

/-- The answer of the partner card is a fault (R426). -/
def replyFault (r : Option FabricReply) : Bool :=
  match r with
  | some .faultResponse => true
  | _ => false

/-- The lines of an answer of the partner card that are poisoned. -/
def replyBad (r : Option FabricReply) : List Nat :=
  match r with
  | some (.data _ bad) => bad
  | _ => []

/-- The answer of the partner card holds poisoned data. -/
def replyPoison (r : Option FabricReply) : Bool := !(replyBad r).isEmpty

/-- The physical address of the first poisoned line of a span (R416, R429), 0 for a scratchpad's (R430). -/
def State.poisonLine (s : State) (x : Span) : Option Nat :=
  let place (k : Nat) : Nat := if x.scratch then 0 else k / 64 * 64
  if x.por then some (place x.key)
  else if x.partner then ((replyBad x.reply).head?.map fun l => l * 64)
  else (((List.range (x.len / 64 + 2)).map fun i => x.key / 64 + i).find? fun l =>
    s.poisoned.contains l && decide (l * 64 < x.key + x.len)).map fun l => place (l * 64)

/-- A poisoned byte lies in the span (R429, R416). -/
def State.spanPoisoned (s : State) (x : Span) : Bool := (s.poisonLine x).isSome

/-! ### Loads -/

/-- The newest of an agent's unperformed stores to a byte (R178). -/
def newestStore (uid key : Nat) : List PendingStore → Option Byte
  | [] => none
  | p :: t =>
    match newestStore uid key t with
    | some b => some b
    | none => if p.agent = uid then (p.cells.reverse.find? fun c => c.1 == key).map fun c => c.2 else none

/-- The byte an agent reads at a memory key: its own unperformed store, else what the home holds (R178). -/
def State.loadByte (s : State) (uid key : Nat) : Byte :=
  match newestStore uid key s.stores with
  | some b => b
  | none => s.mem.read key

/-- A byte of a partner card's answer; one the answer does not give is a free value (assumption 6). -/
def replyByte (reply : Option FabricReply) (pa : Nat) : Byte :=
  match reply with
  | some (.data cells _) =>
    match cells.find? fun c => c.1 == pa with
    | some c => c.2
    | none => Config.partnerByte pa
  | _ => Config.partnerByte pa

/-- The bytes of spans, first to last, `f` giving those of this card. -/
def spanBytes (f : Span → Nat → Byte) (l : List Span) : List Byte :=
  l.flatMap fun x => (List.range x.len).map fun i =>
    if x.partner then replyByte x.reply (x.key + i) else f x (x.key + i)

/-- The bytes of spans as an agent reads them. -/
def State.loadSpans (s : State) (uid : Nat) (l : List Span) : List Byte := spanBytes (fun _ k => s.loadByte uid k) l

/-- Bytes as memory holds them, for engines, whose accesses are performed in their own steps (R194). -/
def State.homeBytes (s : State) (l : List Span) : List Byte := spanBytes (fun _ k => s.mem.read k) l

/-! ### L1 (R178, R179) -/

/-- What a core's L1 holds of a line. -/
def State.l1Line (s : State) (core line : Nat) : Option L1Line := s.l1.find? fun x => x.core == core && x.line == line

/-- The L1 serves a page: RC, UO and DR, where the page is allocated in L1 (R179, R416). -/
def Span.cached (x : Span) : Bool := !x.partner && !x.scratch && x.ord != 0 && x.cache == 0

/-- A byte of a cached page as a load of a wave on `core` finds it: the copy, where the L1 still holds one, or the home's. A
line leaves the L1 at any time (assumption 13). -/
def State.l1Byte (s : State) (core k : Nat) : Byte :=
  match s.l1Line core (k / 64) with
  | some x => if Config.l1Holds s.steps (k / 64) then (x.bytes[k % 64]?).getD 0 else s.mem.read k
  | none => s.mem.read k

/-- Lines leave a core's L1. -/
def State.evict (s : State) (f : L1Line → Bool) : State := { s with l1 := dropIf f s.l1 }

/-- Every line leaves the L1 of a core: what it reads next comes from the homes (R178). -/
def State.flushL1 (s : State) (core : Nat) : State := s.evict fun x => x.core == core

/-- The L1 of a core takes the lines that a load missed; lines under the read-only hint and lines of pages it does not serve
leave it. -/
def State.fillL1 (s : State) (core : Nat) (keep : Bool) (lines : List Nat) : State :=
  let stays (l : Nat) : Bool := keep && (s.l1Line core l).isSome && Config.l1Holds s.steps l
  let new := if keep then (lines.filter fun l => !stays l).map fun l => { core := core, line := l, bytes := s.mem.bytes (l * 64) 64 }
    else []
  let s := s.evict fun x => x.core == core && lines.contains x.line && !stays x.line
  { s with l1 := s.l1 ++ new }

/-- Memory as it was when the wave's record was launched (R72, R84). -/
def State.launchMemory (s : State) (w : Wave) : Option Memory :=
  (s.block w.block).bind fun b => (Assoc.find s.grids b.grid).map fun g => g.memory

/-- The byte that a load of a wave reads in a span: its own unperformed store; else, on a page that the L1 serves, what the
L1 of its core gives (R178); under the read-only hint, for each aligned word, the old or the new value (R84). -/
def State.readByte (s : State) (core : Nat) (w : Wave) (x : Span) (k : Nat) : Byte :=
  match newestStore w.uid k s.stores with
  | some b => b
  | none =>
    if !x.cached then s.mem.read k
    else if wmCH w.wm ≠ 2 then s.l1Byte core k
    else match s.launchMemory w with
      | none => s.mem.read k
      | some m => if m.read k = s.mem.read k then s.mem.read k else if Config.readsOld s.steps (k / 4) then m.read k else s.mem.read k

/-- The bytes that a load of a wave reads, first to last. -/
def State.readSpans (s : State) (core : Nat) (w : Wave) (l : List Span) : List Byte := spanBytes (s.readByte core w) l

/-- The launched record of a wave's block has had a word stored to by its own context since (R72). -/
def State.ownStored (s : State) (w : Wave) (key : Nat) : Bool :=
  match (s.block w.block).bind fun b => Assoc.find s.grids b.grid with
  | some g => g.stored.contains (key / 4)
  | none => false

/-- The word that a fetch of a wave gives: the one of its launch; where its own context has stored to it since, that or the
new one (R72). -/
def State.codeWord (s : State) (w : Wave) (l : List Span) : Word :=
  let new := BitVec.ofNat 32 (leNat (s.homeBytes l))
  match s.launchMemory w with
  | none => new
  | some m =>
    let old := BitVec.ofNat 32 (leNat ({ s with mem := m }.homeBytes l))
    if old = new then new
    else if l.any (fun x => s.ownStored w x.key) && !Config.fetchesOld s.steps then new else old

/-! ### Stores -/

/-- Lines that the cells cover whole. -/
def wholeLines (cells : List Host.Cell) : List Nat :=
  (distinct (cells.map fun c => c.1 / 64)).filter fun l =>
    (List.range 64).all fun i => cells.any fun c => c.1 == l * 64 + i

/-- Apply a clean store at its home; a line written whole loses its poison mark, and a store to a residency bit removes the
duplicate-filter entries of its tile (R177, R379, R429). Copies that L1 caches hold stay. -/
def State.applyCells (s : State) (cells : List Host.Cell) : State :=
  let whole := if s.poisoned.isEmpty then [] else wholeLines cells
  { s with mem := s.mem.writeCells cells, poisoned := dropIf (fun l => whole.contains l) s.poisoned,
           filters := dropIf (fun f => cells.any fun c => c.1 == f.bitKey) s.filters }

/-- Apply a store of the device itself at its home; no L1 keeps a copy of its lines. -/
def State.performCells (s : State) (cells : List Host.Cell) : State :=
  (s.applyCells cells).evict fun x => cells.any fun c => c.1 / 64 == x.line

/-- Apply a store of a wave on `core` at its home: that core's L1 updates its own copy, other cores' stay as they are
(R178). -/
def State.performOwn (s : State) (core : Nat) (cells : List Host.Cell) : State :=
  let s := s.applyCells cells
  { s with l1 := s.l1.map fun x =>
      if x.core = core ∧ cells.any (fun c => c.1 / 64 == x.line) then { x with bytes := s.mem.bytes (x.line * 64) 64 } else x }

/-- Note the words that a context stores to, for its fetches in the same launch (R72). -/
def State.noteStore (s : State) (ctx : Nat) (cells : List Host.Cell) : State :=
  { s with grids := s.grids.map fun (g : Nat × Grid) =>
      if ctxKey g.2.pav g.2.ctx = ctx then (g.1, { g.2 with stored := distinct (g.2.stored ++ cells.map fun c => c.1 / 4) }) else g }

/-- The other replica of a DR byte (R191, R418). -/
def otherReplica (key : Nat) : Nat := if key < 0x1000000000 then key + 0x1000000000 else key - 0x1000000000

/-- Perform one unperformed store (R177, R191). -/
def State.performStore (s : State) (p : PendingStore) : State :=
  let s := (s.performOwn p.core p.cells).noteStore p.ctx p.cells
  match p.replicated with
  | some die => { s with drQueue := s.drQueue ++ [(die, p.cells.map fun c => (otherReplica c.1, c.2))] }
  | none => s

/-- Perform the unperformed stores that `f` selects, oldest first. -/
def State.performIf (s : State) (f : PendingStore → Bool) : State :=
  (s.stores.filter f).foldl State.performStore { s with stores := dropIf f s.stores }

/-- Stores of an agent to UO pages share bytes with others of its stores: they keep their order (R178). -/
def State.mixed (s : State) (uid : Nat) : Bool :=
  s.stores.any fun p => p.agent == uid && p.unordered && s.stores.any fun q =>
    q.agent == uid && !q.unordered && p.cells.any fun c => q.cells.any fun d => c.1 == d.1

/-- A release of an agent that every agent observes: its earlier stores are performed, those to UO pages only under bit [7] (R178, R182, R187). -/
def State.release (s : State) (uid : Nat) (unordered : Bool) : State :=
  let all := unordered || s.mixed uid
  s.performIf fun p => p.agent == uid && (all || !p.unordered)

/-- The block of an agent has two halves: operations at block scope act at pair scope (R184). -/
def State.inPair (s : State) (who : Who) : Bool :=
  match s.block who.block with
  | some b => b.paired
  | none => false

/-- A release at a scope (R178, R184, R185): at pair scope or wider the agent's earlier stores are performed; at block scope
they stay, and are performed before an agent of the block that acquires goes on. -/
def State.releaseAt (s : State) (who : Who) (scope : BitVec 3) (unordered : Bool) : State :=
  if scope = 0 then s
  else if scope = 1 ∧ !s.inPair who then
    { s with stores := s.stores.map fun p =>
        if p.agent = who.uid ∧ (unordered || s.mixed who.uid || !p.unordered) then { p with released := true } else p }
  else s.release who.uid unordered

/-- An acquire at a scope (R178, R184 to R186): the stores of the block that a release at block scope precedes are performed,
and at pair scope or wider the core's L1 gives up its lines. -/
def State.acquireAt (s : State) (who : Who) (scope : BitVec 3) : State :=
  if scope = 0 then s
  else
    let near : List Nat := match s.block who.block with
      | some b => b.agents
      | none => []
    let s := s.performIf fun p => p.released && near.contains p.agent
    if scope = 1 ∧ !s.inPair who then s else s.flushL1 who.core

/-- Perform an agent's stores that share a byte with the keys, and every older one of the agent (R178). -/
def State.performOverlap (s : State) (uid : Nat) (keys : Nat → Bool) : State :=
  if s.stores.any fun p => p.agent == uid && p.cells.any fun c => keys c.1 then
    s.performIf fun p => p.agent == uid
  else s

/-- The cells of bytes laid along spans. -/
def spanCells : List Span → List Byte → List (Span × List Host.Cell)
  | [], _ => []
  | x :: t, bs => (x, cellsFrom x.key (bs.take x.len)) :: spanCells t (bs.drop x.len)

/-- Cells grouped by their 64-byte line, in order. -/
def byLine (cells : List Host.Cell) : List (List Host.Cell) :=
  (distinct (cells.map fun c => c.1 / 64)).map fun l => cells.filter fun c => c.1 / 64 == l

/-- The context of an agent, as one number. -/
def Who.ctxKey (who : Who) : Nat := Machine.ctxKey who.pav who.ctx

/-- Whether a store to a span is performed as it issues: on SO pages, in scratchpads and in publish windows, and on RC and DR
pages under sc order (R180, R188); `WM.MO` gives a store to a UO page no order (R182). -/
def Span.atOnce (x : Span) (sc : Bool) : Bool := x.scratch || x.pub || x.ord == 0 || (sc && x.ord != 2)

/-- A store of a wave to spans: performed at once, or left to be performed (R177). Bytes of partner memory have been sent with
the request (R426). -/
def State.storeSpans (s : State) (who : Who) (sc : Bool) (l : List (Span × List Host.Cell)) : State :=
  l.foldl (fun s x =>
    if x.1.partner then s
    else
      let p := (byLine x.2).map fun cells =>
        { agent := who.uid, core := who.core, ctx := who.ctxKey, cells := cells, unordered := decide (x.1.ord = 2),
          replicated := if x.1.ord = 3 then some (dieOf who.core) else none, va := BitVec.ofNat 64 x.1.va,
          page := x.1.page : PendingStore }
      if x.1.atOnce sc then p.foldl State.performStore (s.performOverlap who.uid fun k => x.2.any fun c => c.1 == k)
      else { s with stores := s.stores ++ p }) s

/-- Propagate one DR store to the other replica (R191). -/
def State.propagate (s : State) (x : Nat × List Host.Cell) : State := s.performCells x.2

/-- Before an access is performed at both replicas of DR bytes, the stores that one replica of them has applied reach the
other, in order with those before them (R191). -/
def State.settle (s : State) (l : List Span) : State :=
  let within (x : Span) (k : Nat) : Bool := decide (x.key ≤ k) && decide (k < x.key + x.len)
  let hit (c : Host.Cell) : Bool := l.any fun x => x.ord == 3#2 && (within x c.1 || within x (otherReplica c.1))
  if s.drQueue.any fun q => q.2.any hit then s.drQueue.foldl State.propagate { s with drQueue := [] } else s

/-- Store bytes of a context at their homes, both replicas of a DR page at once (R293). Bytes of partner memory have been sent
with the request. -/
def State.engineStore (s : State) (ctx : Nat) (l : List (Span × List Host.Cell)) : State :=
  l.foldl (fun s x =>
    if x.1.partner then s
    else if x.1.ord = 3 then
      (((s.settle [x.1]).performCells x.2).performCells (x.2.map fun c => (otherReplica c.1, c.2))).noteStore ctx x.2
    else (s.performCells x.2).noteStore ctx x.2) s

/-- Offsets of the poisoned bytes that a read of spans finds, the first byte at offset `o` (R294). -/
def State.badOffsets (s : State) : Nat → List Span → List Nat
  | _, [] => []
  | o, x :: t =>
    (if s.spanPoisoned x then
      (List.range x.len).filterMap fun i =>
        if x.por || (if x.partner then replyBad x.reply else s.poisoned).contains ((x.key + i) / 64) then some (o + i) else none
    else []) ++ s.badOffsets (o + x.len) t

/-- Mark the lines of this card poisoned that the bytes at some offsets of spans lie on, in both replicas of a DR page (R294,
R336). -/
def State.poisonAt (s : State) (l : List Span) (bad : List Nat) : State :=
  if bad.isEmpty then s
  else
    let keys := l.flatMap fun x => (List.range x.len).map fun i => (x, x.key + i)
    let lines := bad.flatMap fun o => match keys[o]? with
      | some (x, k) => if x.partner then [] else if x.ord = 3 then [k / 64, otherReplica k / 64] else [k / 64]
      | none => []
    { s with poisoned := distinct (s.poisoned ++ lines) }

/-! ### Device accesses at physical addresses -/

/-- An `n`-byte value of device memory. -/
def State.devRead (s : State) (a n : Nat) : Nat := s.mem.readLE a n
/-- Store an `n`-byte value in device memory. -/
def State.devWrite (s : State) (a n x : Nat) : State := s.performCells (cellsFrom a (leBytes x n))

/-! ### Rings (R378, R419, R441, R454) -/

/-- COUNT of a ring whose header obeys R378, none where the register names no ring or the header breaks the rules.
`size` is the bytes of one entry. -/
def State.ringCount (s : State) (base size : Nat) : Option Nat :=
  let n := s.devRead (base + 16) 4
  if base = 0 ∨ 0x2000000000 < base + 64 + size * n then none
  else if (s.devRead (base + 13) 3 = 0 ∧ s.devRead (base + 20) 44 = 0 ∧ s.devRead (base + 12) 1 ≤ 1)
      ∧ (List.range 13).any fun k => n == 2 ^ (k + 4) then some n
  else none

/-- Room for `units` more entries. -/
def State.ringRoom (s : State) (base count units : Nat) : Bool :=
  decide ((s.devRead base 4 + 2 ^ 32 - s.devRead (base + 4) 4) % 2 ^ 32 + units ≤ count)

/-- Append an entry of `size` bytes; a full ring counts a loss and sets OVERFLOW (R379). -/
def State.ringPost (s : State) (base size : Nat) (entry : List Byte) : State :=
  match s.ringCount base size with
  | none => s
  | some n =>
    let prod := s.devRead base 4
    if s.ringRoom base n 1 then
      (s.performCells (cellsFrom (base + 64 + size * (prod % n)) entry)).devWrite base 4 (prod + 1)
    else (s.devWrite (base + 8) 4 (s.devRead (base + 8) 4 + 1)).devWrite (base + 12) 1 1

/-- An entry of an event ring (R454). -/
def eventEntry (code ctx arg data : Nat) : List Byte := leBytes code 2 ++ leBytes ctx 2 ++ leBytes arg 4 ++ leBytes data 8

/-- The functions that show a pavilion's ring: the physical one, and every virtual one that VFMAP assigns to it (R445, R446,
R454). -/
def State.ringFunctions (s : State) (pav : Nat) : List (Option Nat) :=
  none :: ((s.pf.vfmap.filter fun x => x.2.getLsbD 7 && decide ((x.2.extractLsb' 0 4).toNat = pav)).map fun x => some x.1)

/-- Post a pavilion event; every entry posted raises MSI-X vector 0 of each function that shows the ring (R454). -/
def State.pavEvent (s : State) (pav code ctx arg data : Nat) : State :=
  let base := (s.pav pav).evring.toNat
  match s.ringCount base 16 with
  | none => s
  | some n =>
    if s.ringRoom base n 1 then
      (s.ringFunctions pav).foldl (fun (t : State) v => t.emit (.msix v)) (s.ringPost base 16 (eventEntry code ctx arg data))
    else s.ringPost base 16 (eventEntry code ctx arg data)

/-- Post a physical-function event (R454). -/
def State.pfEvent (s : State) (code ctx arg data : Nat) : State :=
  let base := s.pf.pfevring.toNat
  match s.ringCount base 16 with
  | none => s
  | some n =>
    if s.ringRoom base n 1 then (s.ringPost base 16 (eventEntry code ctx arg data)).emit (.msix none)
    else s.ringPost base 16 (eventEntry code ctx arg data)

/-- A failure at the ingress: the first one latches, all are counted, and an event is raised (R425). -/
def State.ingressFailure (s : State) (cause index pav ctx offset : Nat) : State :=
  let f := s.pf
  let f := if f.ingValid then f else
    { f with ingValid := true, ingCause := BitVec.ofNat 3 cause, ingIndex := BitVec.ofNat 12 index,
             ingCtx := if cause = 1 then 0 else BitVec.ofNat 16 ctx, ingAddr := BitVec.ofNat 64 offset }
  let s := { s with pf := { f with ingCount := f.ingCount + 1 } }
  if cause = 1 then s.pfEvent 3 0 cause offset else s.pavEvent pav 3 ctx cause offset

/-! ### Error records (R431, R432) -/

/-- Build an error record. -/
def errorRecord (source type loc ctx addr count clock : Nat) : BitVec 256 :=
  BitVec.ofNat 256 (1 + source * 2 ^ 8 + type * 2 ^ 16 + loc % 2 ^ 16 * 2 ^ 32 + ctx % 2 ^ 16 * 2 ^ 48
    + addr % 2 ^ 52 * 2 ^ 64 + count % 2 ^ 16 * 2 ^ 128 + clock % 2 ^ 64 * 2 ^ 192)

/-- Record `n` of a die's bank. -/
def State.errorAt (s : State) (die n : Nat) : BitVec 256 := (Assoc.find s.errors (die * 64 + n)).getD 0

/-- Put a record into a die's bank and raise the physical function's event (R432). -/
def State.putError (s : State) (die n : Nat) (r : BitVec 256) : State :=
  { s with errors := Assoc.set s.errors (die * 64 + n) r }.pfEvent 5 0xFFFF die n

/-- R432: merge, else the lowest free record, else the oldest record of TYPE 1 or 3, else drop and count. -/
def State.addError (s : State) (die source type loc ctx addr : Nat) : State :=
  let valid (r : BitVec 256) : Bool := r.getLsbD 0
  let same (r : BitVec 256) : Bool := valid r && decide (r.extractLsb' 8 8 = BitVec.ofNat 8 source)
    && decide (r.extractLsb' 16 8 = BitVec.ofNat 8 type) && decide (r.extractLsb' 32 16 = BitVec.ofNat 16 loc)
    && decide (r.extractLsb' 64 52 = BitVec.ofNat 52 addr)
  let fresh := errorRecord source type loc ctx addr 1 s.clock.toNat
  match (List.range 64).find? fun n => same (s.errorAt die n) with
  | some n =>
    let r := s.errorAt die n
    s.putError die n (errorRecord source type loc (r.extractLsb' 48 16).toNat addr
      (Nat.min 0xFFFF ((r.extractLsb' 128 16).toNat + 1)) s.clock.toNat)
  | none =>
    match (List.range 64).find? fun n => !valid (s.errorAt die n) with
    | some n => s.putError die n fresh
    | none =>
      let minor (n : Nat) : Bool := decide (((s.errorAt die n).extractLsb' 16 8).toNat = 1)
        || decide (((s.errorAt die n).extractLsb' 16 8).toNat = 3)
      let time (n : Nat) : Nat := ((s.errorAt die n).extractLsb' 192 64).toNat
      match ((List.range 64).filter minor).foldl (fun best n => match best with
          | none => some n
          | some b => if time n < time b then some n else some b) none with
      | some n => s.putError die n fresh
      | none =>
        let r := s.errstat[die]?.getD 0
        let drops := Nat.min 0xFFFF ((r.extractLsb' 16 16).toNat + 1)
        { s with errstat := s.errstat.setIfInBounds die (BitVec.ofNat 64 (1 + drops * 65536)) }

/-! ### Event counters (R440) -/

/-- Count `n` of an event on a core, for a context with the debuggable bit (R440, R443). -/
def State.count (s : State) (core pav ctx event n : Nat) : State :=
  if s.debuggable pav ctx then
    let c := s.core core
    if (List.range 4).any fun k => (c.dbg.evsel[k]?.getD 0).toNat == event then
      s.setCore core { c with dbg := { c.dbg with evcnt := c.dbg.evcnt.mapIdx fun k v =>
        if (c.dbg.evsel[k]?.getD 0).toNat = event then v + BitVec.ofNat 64 n else v } }
    else s
  else s

/-! ### Termination (R430) -/

/-- A block belongs to a context. -/
def State.blockIn (s : State) (pav ctx b : Nat) : Bool :=
  match s.block b with
  | some x => x.pav == pav && x.ctx == ctx
  | none => false

/-- ENABLE of a queue (R143, R396). -/
def State.queueEnabled (s : State) (pav q : Nat) : Bool := (s.desc pav q).getLsbD 97

/-- KIND of a queue: true for an item queue (R396). -/
def State.itemQueue (s : State) (pav q : Nat) : Bool := (s.desc pav q).getLsbD 96

/-- Clear ENABLE: the queue's creation ends and its kind is remembered; entries stay (R143, R397). -/
def State.disableQueue (s : State) (pav q : Nat) : State :=
  if s.queueEnabled pav q then
    let kind := s.itemQueue pav q
    (s.setDesc pav q (s.desc pav q &&& ~~~(1#512 <<< 97))).setQueue pav q { s.queue pav q with lastKind := some kind }
  else s

/-- A shipped query runs in a context (R248). -/
def Walker.inCtx (w : Walker) (pav ctx : Nat) : Bool :=
  match w.shipped with
  | some h => h.pav == pav && h.ctx == ctx
  | none => false

/-- A hand-off message is for a context (R248). -/
def LaunchEntry.inCtx (e : LaunchEntry) (pav ctx : Nat) : Bool :=
  match e.handoff with
  | some m => m.pav == pav && m.ctx == ctx
  | none => false

/-- A context is stopped everywhere and its work discarded: its waves, blocks, engine work, unplaced blocks and
resume-list records go, its queues are disabled and its matrix units are released (R397, R430). -/
def State.discardCtx (s : State) (pav ctx : Nat) : State :=
  let mine (b : Nat) : Bool := s.blockIn pav ctx b
  let core (c : CoreState) : CoreState :=
    { c with chans := c.chans.map fun l => dropIf (fun t => mine t.block) l,
             fifo := dropIf (fun e => mine e.block || e.inCtx pav ctx) c.fifo,
             walkers := dropIf (fun x => mine x.2.block || x.2.inCtx pav ctx) c.walkers,
             inbox := dropIf (fun m => mine m.block) c.inbox }
  let unit (u : MatrixUnit) : MatrixUnit :=
    let redx := dropIf (fun m => m.pav == pav && m.ctx == ctx) u.redx
    match u.owner with
    | some b => if mine b then { ({} : MatrixUnit) with redx := redx } else { u with redx := redx }
    | none => { u with redx := redx }
  let gone (g : Nat × Grid) : Bool := g.2.pav == pav && g.2.ctx == ctx
  let owns (t : Triangle) : Bool := t.pav == pav && t.ctx == ctx
  let cover (u : CoverageUnit) : CoverageUnit :=
    { u with input := dropIf owns u.input, binned := dropIf owns u.binned,
             store := dropIf (fun x => x.2.pav == pav && x.2.ctx == ctx) u.store }
  let queues := ((s.pav pav).desc.filter fun d => lineField d.2 18 2 == ctx).map fun d => d.1
  let dist (d : Distributor) : Distributor :=
    { d with resume := d.resume.map fun l => dropIf (fun e => e.pav == pav && e.ctx == ctx) l,
             replies := dropIf (fun r => s.grids.any fun g => g.1 == r.1 && gone g) d.replies }
  let lost := (s.pav pav).faults.filter fun f => f.ctx == ctx
  let away (w : Walker) : Bool := match w.wait with | .remote _ => mine w.block || w.inCtx pav ctx | _ => false
  let ended := s.cores.flatMap fun c => (c.2.walkers.filter fun x => away x.2).map fun x => (x.2.uid, pav, ctx)
  let stopped (b : Nat) : Bool := mine b || (s.pav pav).savedBlocks.any fun x => x.key == b && x.block.ctx == ctx
  let kept (k : SavedWork) : SavedWork :=
    { walkers := dropIf (fun x => stopped x.2.block || x.2.inCtx pav ctx) k.walkers,
      fifo := dropIf (fun x => stopped x.2.block || x.2.inCtx pav ctx) k.fifo,
      transfers := dropIf (fun x => stopped x.2.2.block) k.transfers,
      units := dropIf (fun x => match x.2.owner with | some b => stopped b | none => true) k.units,
      triangles := dropIf (fun x => owns x.2) k.triangles }
  let s := { s with
    waves := dropIf (fun w => mine w.2.block) s.waves,
    cores := s.cores.map fun (c : Nat × CoreState) => (c.1, core c.2),
    units := s.units.map fun (u : Nat × MatrixUnit) => (u.1, unit u.2),
    grids := dropIf gone s.grids,
    dists := s.dists.map dist,
    coverage := s.coverage.map cover,
    colls := dropIf (fun m => m.pav == pav && m.ctx == ctx) s.colls,
    exited := dropIf (fun x => stopped x.2.1) s.exited,
    ended := s.ended ++ ended,
    logs := dropIf (fun l => l.pav == pav && l.ctx == ctx) s.logs,
    blocks := dropIf (fun b => b.2.pav == pav && b.2.ctx == ctx) s.blocks }
  let p := s.pav pav
  let s := s.setPav pav { p with
    faults := dropIf (fun f => lost.contains f) p.faults,
    savedBlocks := dropIf (fun b => b.block.ctx == ctx) p.savedBlocks,
    savedWork := kept p.savedWork,
    queues := p.queues.map fun (q : Nat × QueueState) =>
      let x := { q.2 with waiting := q.2.waiting.filter fun k => (s.wave k).isSome }
      (q.1, if queues.contains q.1 then { x with fault := none, fabric := none, answers := [] } else x) }
  queues.foldl (fun s q => s.disableQueue pav q) s

/-- Terminate a context and raise the pavilion event with its cause (R430, R454). -/
def State.terminate (s : State) (pav ctx cause : Nat) (trapPc : DWord) : State :=
  (s.discardCtx pav ctx).pavEvent pav 2 ctx cause trapPc.toNat

/-! ### How an instruction stops -/

/-- The codes of R85. -/
def Cause.code : Cause → Nat
  | .illegalOpcode => 0x01 | .illegalOperand => 0x02 | .illegalType => 0x03 | .illegalMode => 0x04 | .priv => 0x05
  | .accessViolation => 0x09 | .align => 0x0A | .windowCross => 0x0B | .scratchBounds => 0x0C | .shapeBudget => 0x0D
  | .zcapOverrun => 0x0E | .shapeAlign => 0x0F | .fabricFault => 0x10 | .poison => 0x11 | .mxCheck => 0x12
  | .stackDepth => 0x13 | .pairRole => 0x14 | .trapInsn => 0x18 | .breakpoint => 0x19 | .step => 0x1A | .watchpoint => 0x1B

/-- What keeps an instruction from taking effect: a trap (R206), a page fault (R210; `spill` for a mask-stack access,
R66), accesses of partner memory that have no answer yet (R426), with the scope of the release that comes before they leave, or
a wait at the issue point (R67). -/
inductive Stop where
  | trap (t : TrapInfo)
  | pageFault (va : DWord) (kind : AccessKind) (lanes : Word) (spill : Bool)
  | fabric (asks : List Ask) (release : Option (BitVec 3) := none)
  | wait (w : Wait)
  deriving DecidableEq, Repr

/-- The effect of an instruction, or what stops it. -/
abbrev Run (α : Type) := Except Stop α

/-- Trap with TRAPLANES and TRAPADDR 0 (R81, R132). -/
def trapE {α : Type} (c : Cause) : Run α := .error (.trap { cause := c, lanes := 0, addr := 0 })
/-- Trap with lanes and an address. -/
def trapAt {α : Type} (c : Cause) (lanes : Word) (addr : DWord) : Run α :=
  .error (.trap { cause := c, lanes := lanes, addr := addr })
/-- Trap `POISON`, with the line that R430 records. -/
def trapPoison {α : Type} (lanes : Word) (addr : DWord) (line : Nat) : Run α :=
  .error (.trap { cause := .poison, lanes := lanes, addr := addr, line := line })
/-- A run whose accesses of partner memory are a release at a scope: the wave's earlier stores come before them (R154, R162). -/
def Run.releasing {α : Type} (scope : Option (BitVec 3)) : Run α → Run α
  | .error (.fabric asks _) => .error (.fabric asks scope)
  | r => r
/-- Trap unless a check holds. -/
def require (b : Bool) (c : Cause) : Run Unit := if b then .ok () else trapE c

/-! ### Trace packets (R439, R443) -/

/-- Put one packet into a core's trace ring. -/
def State.putPacket (s : State) (core : Nat) (pc : DWord) (slot kind : Nat) : State :=
  let c := s.core core
  let size := 2 ^ (c.dbg.traceCtl.extractLsb' 1 5).toNat
  let at_ := c.dbg.traceBase.toNat + c.dbg.traceProd.toNat * 16 % size
  let s := s.performCells (cellsFrom at_ (leBytes pc.toNat 8 ++ leBytes (loWord s.clock).toNat 4 ++ leBytes slot 1
    ++ leBytes kind 1 ++ leBytes 0 2))
  s.setCore core { c with dbg := { c.dbg with traceProd := c.dbg.traceProd + 1 } }

/-- The trace encoder writes a packet, or drops it while the ring is full; one overflow packet precedes the next
(R439). The ring base is taken as a device physical address (assumption 16). -/
def State.trace (s : State) (k pav ctx : Nat) (pc : DWord) (kind : Nat) : State :=
  let core := coreOf k
  let d := (s.core core).dbg
  let size := 2 ^ (d.traceCtl.extractLsb' 1 5).toNat / 16
  let used := (d.traceProd - d.traceCons).toNat
  if !d.traceCtl.getLsbD 0 ∨ !s.debuggable pav ctx then s
  else if size < used + (if d.traceLost then 2 else 1) then
    s.setCore core { s.core core with dbg := { d with traceLost := true } }
  else
    let s := if d.traceLost then
        let s := s.putPacket core pc (k % 32) 6
        s.setCore core { s.core core with dbg := { (s.core core).dbg with traceLost := false } }
      else s
    s.putPacket core pc (k % 32) kind

/-! ### The context image (R209, R214 to R217) -/

/-- The agent of a wave. -/
def State.whoOf (s : State) (k : Nat) (w : Wave) : Who :=
  match s.block w.block with
  | some b => { core := coreOf k, pav := b.pav, ctx := b.ctx, block := w.block, uid := w.uid }
  | none => { core := coreOf k, pav := 0, ctx := 0, block := w.block, uid := w.uid }

/-- LOGOPEN (R59, R209). -/
def Wave.logOpen (w : Wave) : Nat := w.trapLog + w.log.length

/-- `WS` as it reads (R59). -/
def Wave.ws (w : Wave) : Word :=
  BitVec.ofNat 32 ((if w.wsStep then 1 else 0) + (if w.wsPriv then 2 else 0) + w.wsCause.toNat * 256
    + w.wsPast.toNat * 65536 + w.logOpen % 16 * 16777216)

/-- The tag code of a register (R45). -/
def VReg.tag : VReg → Nat
  | .u _ => 0
  | .a _ => 1
  | .g _ => 2
  | .p _ => 3

/-- The shape slot of a register, zero for G (R45, R214). -/
def VReg.slot : VReg → DWord
  | .u x => zext64 x
  | .a s => s
  | .g _ => 0
  | .p x => zext64 x

/-- The 128 bytes of a row. -/
def VReg.rowBytes : VReg → List Byte
  | .g row => row.toList.flatMap fun x => leBytes x.toNat 4
  | _ => []

/-- The position of a number in a list. -/
def indexIn (x : Nat) : List Nat → Nat
  | [] => 0
  | y :: t => if x = y then 0 else indexIn x t + 1

/-- A log record (R216). -/
def logRecord (retained : List Nat) (e : LogEntry) : List Byte :=
  let src (x : LogSource) : Nat :=
    if x.val.isRow then
      match x.retained with
      | some r => 0x8000 + indexIn r retained
      | none => x.reg.toNat
    else x.val.slot.toNat
  let tags := (e.sources.zipIdx.map fun x => x.1.val.tag * 4 ^ x.2).foldl (· + ·) 0
  leBytes e.pc.toNat 8 ++ leBytes e.word.toNat 4 ++ leBytes e.wm.toNat 4 ++ leBytes e.lanes.toNat 4 ++ leBytes tags 2
    ++ leBytes e.sources.length 1 ++ leBytes 0 1
    ++ (List.range 6).flatMap (fun n => leBytes ((e.sources[n]?.map src).getD 0) 8)
    ++ leBytes e.faddr.toNat 8 ++ leBytes 0 48

/-- The row a retained-row number names. -/
def retainedRow (log : List LogEntry) (r : Nat) : List Byte :=
  match (log.flatMap fun e => e.sources).find? fun x => x.retained == some r with
  | some x => x.val.rowBytes
  | none => leBytes 0 128

/-- The context image of a wave (R214), its issue point being `pc`; CAUSE is 0 for pre-emption (R215). -/
def Wave.image (w : Wave) (cause : Nat) : List Byte :=
  let regs := w.regs.toList
  let retained := retainedRows w.log
  let n := w.log.length
  let size := 2368 + 128 * (rowCount w.regs + n + retained.length) + 8 * w.masks.length
  leBytes w.pc.toNat 8 ++ leBytes w.trapPc.toNat 8 ++ leBytes w.trapAddr.toNat 8 ++ leBytes w.trapLanes.toNat 4
    ++ leBytes cause 1 ++ leBytes w.wsPast.toNat 1 ++ leBytes (n * 16 + (2 ^ n - 1)) 1 ++ leBytes w.depth 1
    ++ leBytes w.exec.toNat 4 ++ leBytes w.wm.toNat 4 ++ leBytes w.ws.toNat 4 ++ leBytes w.gbudget.toNat 4
    ++ leBytes (rowCount w.regs) 4 ++ leBytes w.rseed.toNat 4 ++ leBytes w.lr.toNat 8 ++ leBytes w.fp.toNat 8
    ++ leBytes w.kinds.toNat 8 ++ (w.preds.toList.drop 1).flatMap (fun p => leBytes p.toNat 4) ++ leBytes 0 4
    ++ leBytes size 4 ++ leBytes retained.length 4 ++ leBytes 0 136
    ++ regs.flatMap (fun r => leBytes r.slot.toNat 8)
    ++ (List.range 64).flatMap (fun j => leBytes ((List.range 4).foldl (fun x i =>
        x + ((regs[4 * j + i]?).map VReg.tag).getD 0 * 4 ^ i) 0) 1)
    ++ regs.flatMap VReg.rowBytes
    ++ w.log.flatMap (logRecord retained)
    ++ retained.flatMap (retainedRow w.log)
    ++ w.masks.reverse.flatMap (fun m => leBytes m.toNat 8)

/-- Store bytes at a virtual address of a context in one piece; none where an access faults or meets poison (R209). -/
def State.storeVa (s : State) (who : Who) (va : Nat) (bs : List Byte) : Option State :=
  match s.resolve who .write false va bs.length with
  | .error _ => none
  | .ok l =>
    if l.any (fun x => x.partner || x.por) then none
    else
      let cells := spanCells l bs
      some ((s.performOverlap who.uid fun k => cells.any fun x => x.2.any fun c => c.1 == k).engineStore who.ctxKey cells)

/-- Address of the save area of a wave slot (R209). -/
def State.saveArea (s : State) (pav ctx k : Nat) : Nat := s.ctxField pav ctx 128 8 + k * 0x9000

/-- Offsets in a wave's image of the bytes of its poisoned rows (R214, R428). -/
def Wave.badImage (w : Wave) : List Nat :=
  if w.badRows.isEmpty then []
  else
    let rows := (List.range 256).filter fun r => (rd w.regs (BitVec.ofNat 8 r)).isRow
    rows.zipIdx.flatMap fun x => if w.badRows.contains (BitVec.ofNat 8 x.1) then (List.range 128).map fun i => 2368 + 128 * x.2 + i else []

/-- Mark the lines poisoned that bytes at some offsets from a virtual address lie on: poison moves with the data (R429). -/
def State.poisonVa (s : State) (who : Who) (va : Nat) (bad : List Nat) : State :=
  if bad.isEmpty then s
  else match s.resolve who .write false va (bad.foldl Nat.max 0 + 1) with
    | .error _ => s
    | .ok l => s.poisonAt l bad

/-- Save the image and the shadow sets of a wave (R214, R285). -/
def State.saveImage (s : State) (k : Nat) (w : Wave) (area cause : Nat) : Option State :=
  match s.storeVa (s.whoOf k w) area (w.image cause) with
  | none => none
  | some s =>
    let s := s.poisonVa (s.whoOf k w) area w.badImage
    s.storeVa (s.whoOf k w) (area + 0x8C00) (w.shadow.toList.flatMap fun x => leBytes x.toNat 8)

/-- Bytes of a save area; none where the access faults or meets poison (R209). -/
def State.readArea (s : State) (who : Who) (area off n : Nat) : Option (List Byte) :=
  if n = 0 then some []
  else match s.resolve who .read false (area + off) n with
    | .error _ => none
    | .ok l => if l.any fun x => x.partner || s.spanPoisoned x then none else some (s.loadSpans who.uid l)

/-- A value at offset `off` of bytes. -/
def fieldOf (bs : List Byte) (off n : Nat) : Nat := leNat ((bs.drop off).take n)

/-- Tag of register `r` in the tag bitmap of an image, whose slots and tags are `mid` (R214). -/
def imageTag (mid : List Byte) (r : Nat) : Nat := fieldOf mid (2048 + r / 4) 1 / 4 ^ (r % 4) % 4

/-- The register file of an image (R214, R217): slots and tags `mid`, then rows in register order. -/
def imageRegs (mid rows : List Byte) : Regs :=
  ((List.range 256).foldl (fun (acc : Regs × List Byte) r =>
    let slot := BitVec.ofNat 64 (fieldOf mid (8 * r) 8)
    match imageTag mid r with
    | 0 => (acc.1.setIfInBounds r (.u (loWord slot)), acc.2)
    | 1 => (acc.1.setIfInBounds r (.a slot), acc.2)
    | 2 => (acc.1.setIfInBounds r (.g (rowOf fun i => BitVec.ofNat 32 (fieldOf acc.2 (4 * i) 4))), acc.2.drop 128)
    | _ => (acc.1.setIfInBounds r (.p (loWord slot)), acc.2)) (Vector.replicate 256 (.u 0), rows)).1

/-- The checks of R217 on an image: its header's REGROWS and WM, and its tags. -/
def imageOk (mid : List Byte) (rows wm gbudget retained : Nat) : Bool :=
  decide (rows + retained ≤ gbudget)
    && decide (((List.range 256).filter fun r => imageTag mid r == 2).length = rows)
    && ((List.range 256).all fun r => imageTag mid r != 3 || (r % 2 == 1 && imageTag mid (r - 1) == 1))
    && wmLegal (BitVec.ofNat 32 wm)

/-- A lookup of the sampler, which reads residency bits. -/
def isSampler : Instr → Bool
  | .ldlod _ _ _ => true
  | .sample _ _ _ => true
  | _ => false

/-- An entry that translates again, and asks the partner card again unless its requests are still under way or answered; a lookup
of the sampler reads its residency bits again (R213, R220, R380). -/
def LogEntry.reopened (e : LogEntry) (under : Nat → Bool) : LogEntry :=
  if isSampler e.instr then { e with fltid := none, state := .resolved, fabric := none, answers := [] }
  else { e with fltid := none, state := .resolved, fabric := e.fabric.filter under }

/-- Reopen the log entries that LOG names: record `n` where fewer than LOG[7:4] stand before it and its bit of LOG[3:0] is set.
Each replays by translating again, its rows as the image holds them; `under` are the requests that have no answer yet
(R213, R215, R217). -/
def reopen (log : List LogEntry) (bits : Nat) (regs : Regs) (kept : List Byte) (under : List Nat) : List LogEntry :=
  let numbers := retainedRows log
  let row (r : Nat) : VReg := .g (rowOf fun i => BitVec.ofNat 32 (fieldOf kept (128 * indexIn r numbers + 4 * i) 4))
  (log.zipIdx.filter fun x => decide (x.2 < bits / 16 % 16) && bits / 2 ^ x.2 % 2 == 1).map fun x =>
    { x.1.reopened under.contains with
               sources := x.1.sources.map fun y => match y.retained with
        | some r => { y with val := row r }
        | none => if y.val.isRow && (rd regs y.reg).isRow then { y with val := rd regs y.reg } else y }

/-- R217 and R436: restore a wave from an image; none where a restore access faults or meets poison (R209). -/
def State.restoreWave (s : State) (k : Nat) (w : Wave) (saved : SavedWave) (area : Nat) : Option (Except Cause Wave) :=
  let who := s.whoOf k w
  match s.readArea who area 0 108, s.readArea who area 256 2112 with
  | some head, some mid =>
    let rows := fieldOf head 48 4
    let retained := (retainedRows saved.log).length
    let tail := 2368 + 128 * (rows + fieldOf head 30 1 / 16 % 16)
    let n := Nat.min saved.depth 16
    if !imageOk mid rows (fieldOf head 36 4) w.gbudget.toNat retained then some (.error .illegalOperand)
    else if fieldOf head 0 8 % 4 ≠ 0 then some (.error .align)
    else match s.readArea who area 2368 (128 * rows), s.readArea who area tail (128 * retained + 8 * n),
        s.readArea who area 0x8C00 256 with
      | some body, some last, some shadow =>
        let regs := imageRegs mid body
        let word (off : Nat) : Word := BitVec.ofNat 32 (fieldOf head off 4)
        some (.ok { w with
          regs := regs,
          preds := #v[fullMask, word 80, word 84, word 88, word 92, word 96, word 100, word 104],
          exec := word 32, wm := word 36, rseed := if word 52 = 0 then 1 else word 52,
          lr := BitVec.ofNat 64 (fieldOf head 56 8), fp := BitVec.ofNat 64 (fieldOf head 64 8),
          pc := BitVec.ofNat 64 (fieldOf head 0 8), depth := saved.depth, kinds := saved.kinds,
          masks := ((List.range n).map fun i => BitVec.ofNat 64 (fieldOf last (128 * retained + 8 * i) 8)).reverse,
          log := reopen saved.log (fieldOf head 30 1) regs last (s.fabric.map FabricReq.group),
          shadow := w.shadow.mapIdx fun i _ => BitVec.ofNat 64 (fieldOf shadow (8 * i) 8),
          wsStep := saved.step, wsPriv := saved.priv, handler := none, trapLog := 0, owed := [], wait := .none,
          heldTrap := none, answers := [], badRows := [] })
      | _, _, _ => none
  | _, _ => none

/-! ### Taking an exception (R206 to R209) and returning from one (R217) -/

/-- Consumed poison: the error record and the termination of R430. -/
def State.consumePoison (s : State) (core pav ctx source addr : Nat) (trapPc : DWord) : State :=
  (s.addError (dieOf core) source 7 core ctx addr).terminate pav ctx Cause.poison.code trapPc

/-- The address a `POISON` trap carries for an accumulator element: no access has it (R172), and the record of R430 names
SOURCE 3 and ADDR 0. -/
def accumulatorPoison : DWord := 0xFFFFFFFFFFFFFFFF

/-- A debugger is attached to the wave's context, which has the debuggable bit (R435, R443). -/
def State.attached (s : State) (core pav ctx : Nat) : Bool :=
  (s.core core).dbg.attached && (s.core core).dbg.ctx == ctx && s.debuggable pav ctx

/-- The state in which a handler starts (R209). -/
def handlerWave (w : Wave) (area : Nat) (code : DWord) (priv : Bool) (cause : Nat) : Wave :=
  { w with
    regs := ((Vector.replicate 256 (VReg.u 0)).set 0 (.u (BitVec.ofNat 32 area))).set 1 (.u (BitVec.ofNat 32 (area / 2 ^ 32)))
      |>.set 2 (.u (BitVec.ofNat 32 cause)),
    preds := #v[fullMask, 0, 0, 0, 0, 0, 0, 0], exec := fullMask, depth := 0, masks := [], kinds := 0, wm := 0, lr := 0,
    fp := BitVec.ofNat 64 (area + 0x9000), wsStep := false, wsPriv := priv, pc := code,
    shadow := Vector.replicate 32 0, log := [], answers := [], badRows := [], trapLog := w.log.length,
    handler := some { depth := w.depth, kinds := w.kinds, step := w.wsStep, priv := w.wsPriv, log := w.log } }

/-- TAKING AN EXCEPTION: the table of R208, and on its last row the save of R214 and the handler entry of R209. The
trapping instruction is at `tpc`, the wave resumes at `retpc`, and `past` instructions after `tpc` have retired. A descriptor
whose trap fields lie on a poisoned line is consumed poison (R429, assumption 60). -/
def State.takeTrap (s : State) (k : Nat) (w : Wave) (t : TrapInfo) (tpc retpc : DWord) (past : Nat) : State :=
  let who := s.whoOf k w
  let w := { w with wsCause := BitVec.ofNat 8 t.cause.code, wsPast := BitVec.ofNat 8 past,
                    trapCause := BitVec.ofNat 8 t.cause.code, trapPc := tpc, trapLanes := t.lanes, trapAddr := t.addr,
                    pc := retpc, owed := [], wait := .none, heldTrap := none, answers := [], watchHit := none,
                    skipBreak := false,
                    mxCheck := if t.cause = .mxCheck then none else w.mxCheck }
  let flags := s.ctxField who.pav who.ctx 124 1
  let debug := decide (t.cause = .breakpoint) || decide (t.cause = .step) || decide (t.cause = .watchpoint)
  let struck := s.descPoison who.pav who.ctx
  if t.cause = .poison ∨ struck.isSome then
    s.consumePoison who.core who.pav who.ctx (if t.cause = .poison ∧ t.addr = accumulatorPoison then 3 else 0)
      (if t.cause = .poison then t.line else struck.getD 0) tpc
  else if debug ∧ s.attached who.core who.pav who.ctx then s.setWave k { w with wait := .halted }
  else if flags / 8 % 2 = 1 ∨ w.handler.isSome ∨ s.ctxField who.pav who.ctx 120 4 / 2 ^ t.cause.code % 2 = 0 then
    s.terminate who.pav who.ctx t.cause.code tpc
  else
    let area := s.saveArea who.pav who.ctx k
    let handler := BitVec.ofNat 64 (s.ctxField who.pav who.ctx 112 8)
    match s.saveImage k w area t.cause.code with
    | none => s.terminate who.pav who.ctx t.cause.code tpc
    | some s =>
      (s.setWave k (handlerWave w area handler (decide (flags / 4 % 2 = 1)) t.cause.code)).trace k who.pav who.ctx handler 3

/-- A trap detected at the issue point: delivered at once, or held while log entries are open (R207). -/
def State.raiseTrap (s : State) (k : Nat) (w : Wave) (t : TrapInfo) : State :=
  if w.log.isEmpty then s.takeTrap k w t w.pc w.pc 0
  else s.setWave k { w with heldTrap := some t, wait := .log, answers := [] }

/-- RETURN FROM AN EXCEPTION: `RTE` in a handler (R217). It has issued (R440), and the step of a handler ends at it (R218). -/
def State.returnFromTrap (s : State) (k : Nat) (w : Wave) (saved : SavedWave) : State :=
  let who := s.whoOf k w
  match s.restoreWave k w saved (s.saveArea who.pav who.ctx k) with
  | none => s.terminate who.pav who.ctx 0 w.pc
  | some (.error c) => s.takeTrap k w { cause := c, lanes := 0, addr := 0 } w.pc w.pc 0
  | some (.ok w') =>
    let s := ((s.setWave k w').trace k who.pav who.ctx w'.pc 4).count who.core who.pav who.ctx 1 1
    if w.wsStep then s.takeTrap k w' { cause := .step, lanes := activeMask w, addr := 0 } w.pc w'.pc 0 else s

/-! ### Page faults and the operand log (R210, R419) -/

/-- The fault ring takes records (R419). -/
def State.faultRing (s : State) (pav : Nat) : Bool := (s.ringCount (s.pav pav).fltring.toNat 32).isSome

/-- The heap triple and the regions as a context descriptor gives them (R412). -/
def State.loadCtx (s : State) (c : CoreState) (pav ctx : Nat) : CoreState :=
  let f (off : Nat) : DWord := BitVec.ofNat 64 (s.ctxField pav ctx off 8)
  { c with heapBase := f 16, heapLimit := f 24, heapOffset := f 32, region := Vector.ofFn fun i => f (40 + 8 * i.val),
           ctx := some (pav, ctx) }

/-- The translation of an address meets V = 0 in a directory: a table read of the walk faults (R415, R419, assumption 73). -/
def State.tableFault (s : State) (c : CoreState) (pav ctx va : Nat) : Bool :=
  !inHeap c va && (regionOf c va).isNone
    && decide ((s.directory (s.ctxField pav ctx 0 8) (va / 2 ^ 41 % 2048) fun t => s.directory t (va / 2 ^ 31 % 1024) fun _ => .bad)
      = .fault)

/-- The KIND of a fault record (R419): that of the access, or a table read. -/
def State.faultKind (s : State) (pav ctx core : Nat) (va : DWord) (kind : AccessKind) (unit : FaultUnit) : AccessKind :=
  let c := match unit with
    | .queue _ _ => s.loadCtx {} pav ctx
    | .resume _ _ => s.loadCtx {} pav ctx
    | .ingress _ => s.loadCtx {} pav ctx
    | _ => s.core core
  if s.tableFault c pav ctx va.toNat then .tableRead else kind

/-- A unit meets V = 0: the fault is pending until the driver answers (R419). The identifier is the number
`State.fresh` held. -/
def State.pendFault (s : State) (pav ctx core : Nat) (va : DWord) (kind : AccessKind) (unit : FaultUnit) (lanes : Word) : State :=
  let p := s.pav pav
  let kind := s.faultKind pav ctx core va kind unit
  (s.setPav pav { p with faults := p.faults ++ [{ id := s.fresh, va := va, kind := kind, unit := unit, core := core,
                                                  ctx := ctx, lanes := lanes }] }).bump

/-- Entries in use in a core's operand log (R210, R60): those of the waves in its slots. What a handler's saved wave keeps open is in
its image and is not counted (assumption 61). -/
def State.opLogCount (s : State) (core : Nat) : Nat :=
  (s.waves.filter fun x => coreOf x.1 == core).foldl (fun n x => n + x.2.log.length) 0

/-- The unit whose access faults (R419): the sampler, the gather unit, or the wave. -/
def waveUnit (k : Nat) : Instr → FaultUnit
  | .ldlod _ _ _ | .sample _ _ _ => .sampler k
  | .rgather _ _ _ | .rscat _ _ _ | .rscatadd _ _ _ => .gather k
  | _ => .wave k

/-- Room for one more entry of a wave: it holds at most 4, its core's log 64 (R210). -/
def State.logRoom (s : State) (k : Nat) (w : Wave) : Bool := decide (w.log.length < 4) && decide (s.opLogCount (coreOf k) < 64)

/-- A page fault of a wave instruction (R210): the instruction logs and the wave goes on; or it holds the issue point, until an
entry frees where the log is full, and until the fault is answered where it has more than six sources. With no fault ring
the fault is unresolvable at once (R419). -/
def State.faultWave (s : State) (k : Nat) (w : Wave) (i : Instr) (va : DWord) (kind : AccessKind) (lanes : Word)
    (spill : Bool) : State :=
  let who := s.whoOf k w
  let holds := spill || (match i with | .suspend _ => true | .join _ => true | _ => false)
  let sources := if holds then [] else (sourcesOf w i).map fun r => { reg := r, val := rd w.regs r, retained := none : LogSource }
  if !s.faultRing who.pav then
    s.raiseTrap k w { cause := .accessViolation, lanes := lanes, addr := va }
  else
    let id := s.fresh
    let s' := s.pendFault who.pav who.ctx who.core va kind (waveUnit k i) lanes
    if 6 < sources.length then s'.setWave k { w with wait := .fault id }
    else if !s.logRoom k w then s'.setWave k { w with wait := .logRoom id }
    else
      let e : LogEntry := { pc := w.pc, instr := i, word := (encode i).getD 0, wm := w.wm, lanes := activeMask w, exec := w.exec,
                            failLanes := lanes, sources := sources, faddr := va, fltid := some id, state := .pending, past := 0,
                            holds := holds, shadow := w.shadow, answers := w.answers, step := w.wsStep }
      s'.setWave k { w with skipBreak := w.skipBreak && holds, log := w.log ++ [e], pc := if holds then w.pc else w.pc + 4,
                            wait := if holds then .log else .none, answers := [] }

/-! ### Accesses of partner memory (R423, R426) -/

/-- The answer to an access of a kind and tag, as far as it covers a span. -/
def answerOf (l : List Answer) (kind : AccessKind) (tag : Nat) (x : Span) : Option FabricReply :=
  (l.find? fun a => a.ask.kind == kind && a.ask.tag == tag && a.ask.pa == x.key && a.ask.len == x.len).map Answer.reply

/-- Spans with the answers that have come for them. -/
def withReplies (l : List Answer) (kind : AccessKind) (tag : Nat) (spans : List Span) : List Span :=
  spans.map fun x => if x.partner then { x with reply := answerOf l kind tag x } else x

/-- What the partner spans of an access ask; `data` is what a store sends along them, or the operands of an atomic,
`bad` the poisoned bytes of it. -/
def spanAsks (kind : AccessKind) (tag : Nat) (aop : AtomicOp) : List Span → List Byte → List Nat → List Ask
  | [], _, _ => []
  | x :: t, bs, bad =>
    let rest := spanAsks kind tag aop t (bs.drop x.len) ((bad.filter fun o => decide (x.len ≤ o)).map fun o => o - x.len)
    if x.partner && x.reply.isNone then
      { kind := kind, tag := tag, pa := x.key, len := x.len, va := BitVec.ofNat 64 x.va, page := x.page,
        data := if kind = .atomic then bs else bs.take x.len, bad := bad.filter fun o => decide (o < x.len), aop := aop } :: rest
    else rest

/-- Requests of a unit leave for the partner card as one group, whose number is the one `State.fresh` held. -/
def State.askGroup (s : State) (who : Who) (unit : FaultUnit) (asks : List Ask) : State :=
  let key := s.fabKey who.pav who.ctx
  let reqs := asks.zipIdx.map fun a =>
    { id := s.fresh + a.2, group := s.fresh, unit := unit, core := who.core, ctx := who.ctxKey, ask := a.1, key := key : FabricReq }
  let s := { s with fabric := s.fabric ++ reqs, fresh := s.fresh + asks.length + 1 }
  if s.pf.ualup then s.emit (.fabricAccess reqs) else s

/-- Accesses of a wave instruction reach partner memory: the requests leave and the wave holds its issue point (R426). Where they
are a release, the wave's earlier stores come first (R154, R162). -/
def State.askPartner (s : State) (k : Nat) (w : Wave) (unit : FaultUnit) (asks : List Ask) (release : Option (BitVec 3)) : State :=
  let who := s.whoOf k w
  let s := match release with
    | some scope => s.releaseAt who scope false
    | none => s
  (s.askGroup who unit asks).setWave k { w with wait := .fabric s.fresh }

/-! ### One wave instruction -/

/-- Run the effect of instruction `i` of the wave in slot `State.cur`. The effect is given the wave with `pc` already
advanced past the word, and answers the state and the wave after it; what stops it leaves the wave at the instruction
(R205, R206, R210). An instruction that has issued and waits is not retired; a wave that its own effect terminated stays
gone. -/
def issue (i : Instr) (s : State) (effect : State → Wave → Run (State × Wave)) : Host.Outcome State Fault Refusal :=
  match s.wave s.cur with
  | none => .fault .noWave
  | some w =>
    let w := { w with wait := .none, retired := false }
    match effect s { w with pc := w.pc + 4 } with
    | .ok (s', w') =>
      match s'.wave s.cur with
      | none => .next s'
      | some _ =>
        .next ((if keepsL1 w i then s' else s'.flushL1 (coreOf s.cur)).setWave s.cur
          { w' with answers := [], retired := decide (w'.wait = .none) || decide (w'.wait = .ending) })
    | .error (.trap t) => .next (s.raiseTrap s.cur w t)
    | .error (.wait r) => .next (s.setWave s.cur { w with wait := r })
    | .error (.pageFault va kind lanes spill) => .next (s.faultWave s.cur w i va kind lanes spill)
    | .error (.fabric asks release) => .next (s.askPartner s.cur w (waveUnit s.cur i) asks release)

/-- An instruction that reads and writes only its own wave. -/
def issueOwn (i : Instr) (s : State) (effect : Wave → Run Wave) : Host.Outcome State Fault Refusal :=
  issue i s fun s w =>
    match effect w with
    | .ok w' => .ok (s, w')
    | .error e => .error e

/-! ### The budget check (R54, R212) -/

/-- Change the register file by `f` after the checks of R54: `forced` rows count beside those the new file holds (R51, R131).
`lanes` are those the instruction writes (R132). A replayed instruction changes the wave's registers as they now stand
(R213). -/
def Wave.commit (w : Wave) (f : Regs → Regs) (forced : Nat) (lanes : Word) : Run Wave :=
  let home := w.replay.getD { regs := w.regs, log := w.log }
  let R := f home.regs
  let log := retain home.log home.regs R
  let held := rowCount R + forced
  if w.gbudget.toNat < held + (retainedRows home.log).length then trapAt .shapeBudget lanes 0
  else if w.gbudget.toNat < held + (retainedRows log).length then .error (.wait .row)
  else .ok (if w.replay.isSome then { w with replay := some { regs := R, log := log } } else { w with regs := R, log := log })

/-- Write a destination of one register or pair under a type, with the budget check. -/
def Wave.put (w : Wave) (act : Word) (t : ETy) (d : Reg) (f : Nat → DWord) (sh : Shape) : Run Wave :=
  if act = 0 then .ok w else w.commit (fun R => writeT R act t d f sh) 0 act

end Sys2Proof.Machine
end

