-- ==== Sys2Proof/Machine/Flags.lean ====
section
/-! DEFINITION. What the arithmetic families share: integer values of typed lanes (R86), fitting and saturation (R87),
the type sets of R89, compare relations (R109, R123), the stochastic-rounding sequence (R83), result shapes, and the
issue checks of R76 and R81 on element types. Gyrix keeps no flags (R89); a compare writes a predicate. -/

namespace Sys2Proof.Machine

/-! ### Type sets (R89) -/

/-- INT. -/
def setInt (t : ETy) : Bool := t.isInt
/-- INT32. -/
def setInt32 (t : ETy) : Bool := t == .n32 || t == .s32
/-- FLT. -/
def setFlt (t : ETy) : Bool := t == .f16 || t == .bf16 || t == .f32 || t == .f64
/-- TXT. -/
def setTxt (t : ETy) : Bool := t == .f16 || t == .bf16 || t == .f32
/-- ANYW. -/
def setAnyw (t : ETy) : Bool := t != .b128
/-- INT and FLT. -/
def setNum (t : ETy) : Bool := setInt t || setFlt t
/-- The narrow float types of R129. -/
def narrowFloat (t : ETy) : Bool := t == .e4m3 || t == .e5m2
/-- Any float type. -/
def anyFloat (t : ETy) : Bool := setFlt t || narrowFloat t

/-- Checks 4 and 5 of R81 for operands a type widens: an accepted type first bounds the fields, a refused one traps
`ILLEGAL_TYPE` (R76). -/
def accept (ok : ETy → Bool) (t : ETy) (fields : List Reg) : Run Unit :=
  if ok t then require (fields.all (widened t)) .illegalOperand else trapE .illegalType

/-! ### Integer values (R86, R87) -/

/-- The w-bit pattern of a lane. -/
def ETy.pattern (t : ETy) (x : DWord) : Nat := x.toNat % 2 ^ t.width

/-- The integer a typed lane holds (R86); cb4 is its code. -/
def ETy.value (t : ETy) (x : DWord) : Int :=
  let y := t.pattern x
  if t.signed && decide (2 ^ (t.width - 1) ≤ y) then (y : Int) - 2 ^ t.width else y

/-- Smallest value of an integer type. -/
def ETy.least (t : ETy) : Int := if t.signed then -(2 ^ (t.width - 1)) else 0
/-- Largest value of an integer type. -/
def ETy.most (t : ETy) : Int := if t.signed then 2 ^ (t.width - 1) - 1 else 2 ^ t.width - 1

/-- `x` modulo 2^w in the type's range, extended as R82's register column says. -/
def ETy.wrap (t : ETy) (x : Int) : DWord := BitVec.ofInt 64 (t.value (BitVec.ofInt 64 x))

/-- `Saturate(x, t)` (R32). -/
def ETy.clamp (t : ETy) (x : Int) : Int := if x < t.least then t.least else if t.most < x then t.most else x

/-- R87: the exact result `x` fitted to the type. -/
def ETy.fit (t : ETy) (sat : Bool) (x : Int) : DWord := if sat then t.wrap (t.clamp x) else t.wrap x

/-! ### Result shapes -/

/-- R88: an A result holds only under n32 or s32 without saturation. -/
def keepA (t : ETy) (sat : Bool) (sh : Shape) : Shape :=
  if setInt32 t && !sat then sh else if sh = .u then .u else .g

/-- U when every operand is U, else G. -/
def allU (l : List Shape) : Shape := if l.all fun x => x == .u then .u else .g

/-- R120: a copy of lanes keeps an A result under a type whose lanes are copied whole. -/
def copyShape (t : ETy) (sh : Shape) : Shape :=
  if sh = .a && decide (t.width < 32) then .g else sh

/-! ### Compares (R109) and extremes (R123) -/

/-- The relations of R109. -/
inductive Rel where
  | eq | ne | lt | le | gt | ge | un
  deriving DecidableEq, Repr

/-- A relation on the sign of a difference. -/
def Rel.holds (r : Rel) (c : Int) : Bool :=
  match r with
  | .eq => decide (c = 0)
  | .ne => decide (c ≠ 0)
  | .lt => decide (c < 0)
  | .le => decide (c ≤ 0)
  | .gt => decide (0 < c)
  | .ge => decide (0 ≤ c)
  | .un => false

/-- A relation between two typed lanes; with a NaN only `ne` and `un` hold (R109). -/
def Rel.test (r : Rel) (t : ETy) (a b : DWord) : Bool :=
  if t.isInt then r.holds (t.value a - t.value b)
  else match cmpF (t.fmt.decode a.toNat) (t.fmt.decode b.toNat) with
    | some c => r.holds c
    | none => r == .ne || r == .un

/-- The smaller or larger of two typed lanes, by R100 and R123. -/
def extreme (larger : Bool) (t : ETy) (a b : DWord) : DWord :=
  if t.isInt then
    let x := t.value a
    let y := t.value b
    t.wrap (if larger then (if x < y then y else x) else (if y < x then y else x))
  else
    let x := t.fmt.decode a.toNat
    let y := t.fmt.decode b.toNat
    if x = .nan ∨ y = .nan then BitVec.ofNat 64 t.fmt.canon
    else
      let takeB := if larger then lessF x y else lessF y x
      BitVec.ofNat 64 (t.pattern (if takeB then b else a))

/-! ### Stochastic rounding (R83) -/

/-- `n` steps of the LFSR. -/
def lfsrSteps : Nat → Word → Word
  | 0, x => x
  | n + 1, x => lfsrSteps n (lfsr x)

/-- Lanes of a mask at or below lane `i`. -/
def rankOf (m : Word) (i : Nat) : Nat := ((lanesOf m).filter fun j => decide (j ≤ i)).length

/-- The 16 random bits of lane `i`, the active lanes stepping in ascending order. -/
def randomBits (seed act : Word) (i : Nat) : Nat := (lfsrSteps (rankOf act i) seed).toNat % 65536

/-- The seed after one step for each active lane. -/
def seedAfter (seed act : Word) : Word := lfsrSteps (lanesOf act).length seed

/-- SR is the rounding mode. -/
def isSR (wm : Word) : Bool := wmRM wm == 5#3

/-! ### Lane-wise instructions -/

/-- Write a destination of type `t` that instructions compute lane by lane from rounded values: `f rand i` is lane i's
result. Under SR every active lane steps `RSEED`, a result of U operands is U only when its 32 lanes agree, and the
budget counts it as G (R51, R83, R131). -/
def Wave.putRounded (w : Wave) (t : ETy) (d : Reg) (f : Nat → Nat → DWord) (sh : Shape) : Run Wave :=
  let act := activeMask w
  if !isSR w.wm then w.put act t d (f 0) sh
  else if act = 0 then .ok w
  else
    let row : List DWord := (List.range 32).map fun i => f (randomBits w.rseed act i) i
    let g (i : Nat) : DWord := row[i]?.getD 0
    let same := row.all fun x => x == g 0
    let sh' : Shape := if sh = .u ∧ same then .u else .g
    let forced := if act = fullMask ∧ sh' = .u then (if t.is64 then 2 else 1) else 0
    match w.commit (fun R => writeT R act t d g sh') forced act with
    | .ok w' => .ok { w' with rseed := seedAfter w.rseed act }
    | .error e => .error e

/-- An integer instruction of R100: the exact result of lane i fitted by R87 where `sat` says its row reads SAT. -/
def Wave.intOp (w : Wave) (d : Reg) (fields : List Reg) (sat : Bool) (sh : Shape) (x : ETy → Nat → Int) : Run Wave :=
  let t := wmET w.wm
  match accept setInt t fields with
  | .error e => .error e
  | .ok _ => w.put (activeMask w) t d (fun i => t.fit (sat && wmSAT w.wm) (x t i)) (keepA t (wmSAT w.wm) sh)

/-- The integer value of operand `r` at lane i under the wave's element type. -/
def Wave.intLane (w : Wave) (t : ETy) (r : Reg) (i : Nat) : Int := t.value (laneT w.regs t r i)

/-- Shape of operand `r` under the wave's element type. -/
def Wave.shapeOf (w : Wave) (r : Reg) : Shape := shapeT w.regs (wmET w.wm) r

/-- Operand `r` at lane i as a float of type `t`. -/
def Wave.fltLane (w : Wave) (t : ETy) (r : Reg) (i : Nat) : FVal := t.fmt.decode (laneT w.regs t r i).toNat

/-- A float instruction that rounds once by `WM.RM` (R121, R122, R124). -/
def Wave.fltOp (w : Wave) (d : Reg) (srcs : List Reg) (x : ETy → Nat → Exact) : Run Wave :=
  let t := wmET w.wm
  match accept setFlt t (d :: srcs) with
  | .error e => .error e
  | .ok _ => w.putRounded t d (fun rand i => BitVec.ofNat 64 (t.fmt.round (wmRM w.wm) rand (x t i)))
      (allU (srcs.map w.shapeOf))

/-- A float instruction that reads no rounding mode (R123, R125, R127): `f` gives the result pattern. -/
def Wave.fltPlain (w : Wave) (ok : ETy → Bool) (d : Reg) (srcs : List Reg) (f : ETy → Nat → Nat) : Run Wave :=
  let t := wmET w.wm
  match accept ok t (d :: srcs) with
  | .error e => .error e
  | .ok _ => w.put (activeMask w) t d (fun i => BitVec.ofNat 64 (f t i)) (allU (srcs.map w.shapeOf))

/-- A compare (R109). -/
def Wave.compare (w : Wave) (ok : ETy → Bool) (r : Rel) (p : Pred) (a b : Reg) : Run Wave :=
  let t := wmET w.wm
  match accept ok t [a, b] with
  | .error e => .error e
  | .ok _ => .ok (writePred w (activeMask w) p fun i => r.test t (laneT w.regs t a i) (laneT w.regs t b i))

/-- Write a 32-bit destination that no element type reaches. -/
def Wave.put32 (w : Wave) (act : Word) (d : Reg) (f : Nat → Word) (sh : Shape) : Run Wave :=
  w.put act .n32 d (fun i => zext64 (f i)) sh

/-- Write a pair that no element type reaches. -/
def Wave.putPair (w : Wave) (act : Word) (d : Pair) (f : Nat → DWord) (sh : Shape) : Run Wave :=
  w.put act .n64 (pairReg d) f sh

end Sys2Proof.Machine
end

