-- ==== Sys2Proof/Machine/Access.lean ====
section
/-! DEFINITION. The accesses of a wave instruction: the checks of R152 over its lanes, partner-card answers (R426),
poison (R429), watchpoints (R437), event counts (R440), and loads and stores of single records. -/

namespace Sys2Proof.Machine

/-- Place of a failure in the order of R152. -/
def AccFail.rank : AccFail → Nat
  | .window => 0
  | .cross => 1
  | .bounds => 2
  | .unaligned => 3
  | .bad => 4
  | .fault _ => 5
  | .poison => 6

/-- Trap cause of a failure (R152); a translation fault that the driver may still resolve has none. -/
def AccFail.cause : AccFail → Cause
  | .window => .accessViolation
  | .cross => .windowCross
  | .bounds => .scratchBounds
  | .unaligned => .align
  | .bad => .accessViolation
  | .fault _ => .accessViolation
  | .poison => .poison

/-- One lane's access: lane, address, and what checks 1 to 4 found. -/
structure LaneAccess where
  lane : Nat
  va : DWord
  spans : Except AccFail (List Span)

/-- An access crosses a bound of the heap triple, which is a page boundary wherever it lies (R411). -/
def crossesHeap (c : CoreState) (va n : Nat) : Bool :=
  let inside (b : Nat) : Bool := decide (va < b) && decide (b < va + n)
  c.heapLimit != 0 && (inside c.heapBase.toNat || inside (c.heapBase.toNat + c.heapLimit.toNat))

/-- Checks 1 to 4 of R152 on one access, the alignment that an entry asks for at check 3 (R162), and that of an atomic over a
heap boundary (R411). -/
def State.check (s : State) (who : Who) (kind : AccessKind) (aligned : Bool) (va : DWord) (n : Nat) : Except AccFail (List Span) :=
  match s.resolve who kind false va.toNat n with
  | .error .window => .error .window
  | .error .cross => .error .cross
  | .error .bounds => .error .bounds
  | r =>
    if aligned ∧ (va.toNat % n ≠ 0 ∨ (kind = .atomic ∧ va.toNat < globalEnd ∧ crossesHeap (s.core who.core) va.toNat n)) then
      .error .unaligned
    else r

/-- The failure of a lane. -/
def LaneAccess.fail (a : LaneAccess) : Option AccFail :=
  match a.spans with
  | .error f => some f
  | .ok _ => none

/-- The spans of a lane. -/
def LaneAccess.ok (a : LaneAccess) : List Span :=
  match a.spans with
  | .error _ => []
  | .ok l => l

/-- The first kind of failure that any lane shows (R152). -/
def firstFail (l : List LaneAccess) : Option AccFail :=
  l.foldl (fun best a => match best, a.fail with
    | some b, some f => if f.rank < b.rank then some f else some b
    | none, x => x
    | x, none => x) none

/-- Lanes that satisfy `f`, and the address of the lowest. -/
def lanesThat (l : List LaneAccess) (f : LaneAccess → Bool) : Word × DWord :=
  let hit := l.filter f
  (maskOf fun i => hit.any fun a => a.lane == i, (hit.head?.map LaneAccess.va).getD 0)

/-- A lane reads a poisoned line (R152 check 5, R429). -/
def State.lanePoisoned (s : State) (a : LaneAccess) : Bool := a.ok.any s.spanPoisoned

/-- A core that does not step for a debugger or a gang stop (R221, R438). -/
def CoreState.halted (c : CoreState) : Bool := c.dbg.halt || c.gangHalt

/-- A span of the peer-scratch window lies on another core, which is halted: its messages queue there and the sender
waits (R438). -/
def State.peerHalted (s : State) (core : Nat) (x : Span) : Bool :=
  let c := (x.key - peerBase) / 0x40000
  x.scratch && decide (c ≠ core) && (s.core c).halted

/-- Trap `POISON` where a lane reads a poisoned line. -/
def State.refusePoison (s : State) (l : List LaneAccess) : Run Unit :=
  let bad := l.filter s.lanePoisoned
  match bad.head? with
  | none => .ok ()
  | some a => trapPoison (maskOf fun i => bad.any fun x => x.lane == i) a.va ((a.ok.findSome? s.poisonLine).getD 0)

/-- All the checks of R152 on the accesses of an instruction as far as this card decides them, poison for an access that
reads. -/
def State.checkLanes (s : State) (kind : AccessKind) (spill : Bool) (l : List LaneAccess) : Run Unit :=
  match firstFail l with
  | some (.fault va) =>
    .error (.pageFault (BitVec.ofNat 64 va) kind (lanesThat l fun a => a.fail.isSome).1 spill)
  | some f =>
    let hit := lanesThat l fun a => (a.fail.map AccFail.rank) == some f.rank
    trapAt f.cause hit.1 hit.2
  | none =>
    match (if kind = .write then .ok () else s.refusePoison l) with
    | .error e => .error e
    | .ok _ => if l.any fun a => a.ok.any (s.peerHalted (coreOf s.cur)) then .error (.wait .engines) else .ok ()

/-- An access as it is sent to the partner card where its bytes lie there: its kind, the lane's access, what a store or an
atomic sends, and the atomic's operation. -/
structure Sent where
  kind : AccessKind
  acc : LaneAccess
  data : List Byte := []
  aop : AtomicOp := {}

/-- The access with the answers that have come. -/
def Sent.answered (l : List Answer) (x : Sent) : LaneAccess :=
  { x.acc with spans := x.acc.spans.map (withReplies l x.kind x.acc.lane) }

/-- What the access still asks. -/
def Sent.asks (l : List Answer) (x : Sent) : List Ask := spanAsks x.kind x.acc.lane x.aop (x.answered l).ok x.data []

/-- Checked accesses of an instruction, with the partner card's answers (R426): what it has not answered leaves as one group; a
fault response to any of them traps at the lanes that have it, and poisoned data is consumed. Nothing has been performed on
this card so far. -/
def State.askLanes (s : State) (w : Wave) (l : List Sent) : Run (List LaneAccess) :=
  let asks := l.flatMap (Sent.asks w.answers)
  let done := l.map (Sent.answered w.answers)
  let hit := lanesThat done fun a => a.ok.any fun x => replyFault x.reply
  if !asks.isEmpty then .error (.fabric asks)
  else if done.any fun a => a.ok.any fun x => replyFault x.reply then trapAt .fabricFault hit.1 hit.2
  else match s.refusePoison ((l.filter fun x => x.kind != .write).map (Sent.answered w.answers)) with
    | .error e => .error e
    | .ok _ => .ok done

/-- The accesses of one kind of an instruction, checked and answered. -/
def State.admitLanes (s : State) (w : Wave) (kind : AccessKind) (spill : Bool) (l : List LaneAccess) : Run (List LaneAccess) :=
  match s.checkLanes kind spill l with
  | .error e => .error e
  | .ok _ => s.askLanes w (l.map fun a => { kind := kind, acc := a })

/-- The accesses of the lanes of `act` at addresses `va`, `n` bytes each. -/
def State.laneAccesses (s : State) (who : Who) (kind : AccessKind) (aligned : Bool) (act : Word) (va : Nat → DWord) (n : Nat) :
    List LaneAccess :=
  (lanesOf act).map fun i => { lane := i, va := va i, spans := s.check who kind aligned (va i) n }

/-- Bytes a lane reads. -/
def State.laneBytes (s : State) (w : Wave) (a : LaneAccess) : List Byte := s.loadSpans w.uid a.ok

/-- The lane's access, where it made one. -/
def laneOf (l : List LaneAccess) (i : Nat) : Option LaneAccess := l.find? fun a => a.lane == i

/-! ### Fetch (R71, R72, R426) and the scoreboard (R62, R68) -/

/-- The word at the issue point of a wave, as memory and the partner card's answers give it, or what stops the fetch. -/
def State.fetchWord (s : State) (k : Nat) (w : Wave) : Run Word :=
  if globalEnd ≤ w.pc.toNat then trapAt .accessViolation 0 w.pc
  else
    match s.resolve (s.whoOf k w) .fetch false w.pc.toNat 4 with
    | .error (.fault _) => .error (.pageFault w.pc .fetch 0 false)
    | .error _ => trapAt .accessViolation 0 w.pc
    | .ok l =>
      let l := withReplies w.answers .fetch 32 l
      let asks := spanAsks .fetch 32 {} l [] []
      if !asks.isEmpty then .error (.fabric asks)
      else if l.any fun x => replyFault x.reply then trapAt .fabricFault 0 w.pc
      else match l.findSome? s.poisonLine with
        | some line => trapPoison 0 w.pc line
        | none => .ok (s.codeWord w l)

/-- An instruction at the issue point is in flight at the partner card: its accesses have left or are answered (R205, R426). -/
def State.inFlight (s : State) (w : Wave) : Bool :=
  w.answers.any (fun a => a.ask.kind != .fetch && a.ask.kind != .tableRead) || match w.wait with
    | .fabric g => s.fabric.any fun r => r.group == g && r.ask.kind != .fetch
    | _ => false

/-- Sampler requests of a wave may have read a residency bit and have texels still to read: the partner card has answered them in
part, at the issue point or for an open entry (R380). -/
def State.sampling (s : State) (k : Nat) (w : Wave) : Bool :=
  let log := w.log ++ ((w.handler.map SavedWave.log).getD [])
  (s.inFlight w && match s.fetchWord k w with
    | .ok x => match decodeGyrix x with
      | .ok i => isSampler i
      | .error _ => false
    | .error _ => false)
  || log.any fun e => isSampler e.instr && (e.fabric.isSome || !e.answers.isEmpty)

/-- A wave other than the one in slot `k` has such requests. -/
def State.samplersOwed (s : State) (k : Nat) : Bool := s.waves.any fun x => x.1 != k && s.sampling x.1 x.2

/-- An instruction needs a register that a load still owes (R62, R68). -/
def Wave.owes (w : Wave) (i : Instr) : Bool :=
  let uses := sourcesOf w i ++ destsOf w.wm i
  w.owed.any fun o => o.regs.any fun r => uses.contains r

/-- The wave is parked: its next instruction waits for a load whose data has not arrived (R68). -/
def State.parked (s : State) (k : Nat) (w : Wave) : Bool :=
  !w.owed.isEmpty && match s.fetchWord k w with
    | .ok x => match decodeGyrix x with
      | .ok i => w.owes i
      | .error _ => false
    | .error _ => false

/-! ### Watchpoints (R437) -/

/-- A watchpoint of the core that an access of `n` bytes at `va` meets. -/
def Debug.watches (d : Debug) (reads writes : Bool) (va n : Nat) : Bool :=
  (List.range 4).any fun k =>
    let c := d.watchCtl[k]?.getD 0
    let a := (d.watchAddr[k]?.getD 0).toNat
    c.getLsbD 0 && ((reads && c.getLsbD 1) || (writes && c.getLsbD 2))
      && decide (va < a + 2 ^ (c.extractLsb' 4 4).toNat) && decide (a < va + n)

/-- Note the first of some accesses, each an address and a length, that a watchpoint of the attached context matches
(R435, R437). -/
def State.watch (s : State) (k : Nat) (w : Wave) (reads writes : Bool) (l : List (DWord × Nat)) : Wave :=
  let who := s.whoOf k w
  if s.attached who.core who.pav who.ctx then
    match l.find? fun a => (s.core who.core).dbg.watches reads writes a.1.toNat a.2 with
    | some a => { w with watchHit := some a.1 }
    | none => w
  else w

/-- The lanes' accesses as `watch` takes them. -/
def lanesWatched (l : List LaneAccess) (n : Nat) : List (DWord × Nat) := l.map fun a => (a.va, n)

/-! ### Counting (R440) -/

/-- Count the bytes of an instruction's accesses: event 3 for reads, 4 for writes, and an L1 miss for each global line a
load reads (R68, R440). -/
def State.countBytes (s : State) (who : Who) (reads writes : Nat) (misses : Nat) : State :=
  if s.debuggable who.pav who.ctx then
    ((s.count who.core who.pav who.ctx 3 reads).count who.core who.pav who.ctx 4 writes).count who.core who.pav who.ctx 2 misses
  else s

/-- Global lines that spans touch. -/
def spanLines (l : List Span) : List Nat :=
  distinct ((l.filter fun x => !x.scratch).flatMap fun x => (List.range (x.len / 64 + 2)).filterMap fun i =>
    if (x.key / 64 + i) * 64 < x.key + x.len then some (x.key / 64 + i) else none)

/-! ### Stores -/

/-- Lines that the pieces of a store cover whole, each in pages of one kind: the L1 assembles the line, and it is performed as
one (R427, R429; assumption 13). -/
def assembled (parts : List (Span × List Host.Cell)) : List Nat :=
  let cells := parts.flatMap fun x => x.2
  let alike (a b : Span) : Bool := a.ord == b.ord && a.pub == b.pub && a.scratch == b.scratch && a.partner == b.partner
  let within (n : Nat) (x : Span × List Host.Cell) : Bool := x.2.any fun c => c.1 / 64 == n
  if cells.length < 64 then []
  else (wholeLines cells).filter fun n => parts.all fun x => parts.all fun y => !(within n x && within n y) || alike x.1 y.1

/-- The pieces of a store as they are performed: a line it covers whole in one piece, the rest as the lanes gave it. -/
def storePieces (parts : List (Span × List Host.Cell)) : List (Span × List Host.Cell) :=
  let whole := assembled parts
  if whole.isEmpty then parts
  else
    (parts.map fun x => (x.1, x.2.filter fun c => !whole.contains (c.1 / 64))).filter (fun x => !x.2.isEmpty)
      ++ whole.filterMap fun n =>
        (parts.find? fun x => x.2.any fun c => c.1 / 64 == n).map fun x =>
          (x.1, (parts.flatMap fun y => y.2).filter fun c => c.1 / 64 == n)

/-- Store each lane's bytes in ascending lane order (R155). -/
def State.storeLanes (s : State) (who : Who) (sc : Bool) (l : List LaneAccess) (data : Nat → List Byte) : State :=
  s.storeSpans who sc (storePieces (l.flatMap fun a => spanCells a.ok (data a.lane)))

/-- Some access of an instruction lies on a page that `WM.MO` orders: any but UO (R182). -/
def ordersAny (l : List LaneAccess) : Bool := l.any fun a => a.ok.any fun x => x.ord != 2

/-! ### Atomics -/

/-- Keys that spans cover. -/
def spansHold (l : List Span) (k : Nat) : Bool := l.any fun x => decide (x.key ≤ k) && decide (k < x.key + x.len)

/-- Memory as an atomic of an agent finds it: its earlier stores to the bytes are performed, and both replicas of a DR byte
hold what was stored before (R178, R191). -/
def State.beforeAtomic (s : State) (uid : Nat) (l : List Span) : State := (s.performOverlap uid (spansHold l)).settle l

/-! ### A record that an instruction reads or writes whole -/

/-- One access of an instruction that does not belong to its data operand: `lane` is what a trap reports. -/
def State.oneLane (s : State) (who : Who) (kind : AccessKind) (aligned : Bool) (lane : Nat) (va : DWord) (n : Nat) : LaneAccess :=
  { lane := lane, va := va, spans := s.check who kind aligned va n }

/-- Such an access, checked and answered. -/
def State.oneAccess (s : State) (w : Wave) (who : Who) (kind : AccessKind) (aligned : Bool) (spill : Bool)
    (lane : Nat) (va : DWord) (n : Nat) : Run (List LaneAccess) :=
  s.admitLanes w kind spill [s.oneLane who kind aligned lane va n]

/-- The bytes of one access. -/
def State.readOne (s : State) (w : Wave) (l : List LaneAccess) : List Byte := l.flatMap (s.laneBytes w)

end Sys2Proof.Machine
end

