-- ==== Sys2Proof/Machine/Control.lean ====
section
/-! DEFINITION. Control transfer (R133, R134), structured divergence on the mask stack (R64 to R66, R135, R136), YIELD
(R149), and the trap instructions (R168, R217). -/

namespace Sys2Proof.Machine

/-! ### Targets and trace packets -/

/-- The target of a Form D instruction; `pc` is already past the word (R74, R133). -/
def Wave.target (w : Wave) (off : Off24) : DWord := w.pc - 4 + sext64 off * 4

/-- j of R133: the lowest lane of `EXEC`, lane 0 under an empty one. -/
def Wave.leadLane (w : Wave) : Nat := lowestLane w.exec

/-- Go to a target, with a trace packet (R439). -/
def State.goTo (s : State) (w : Wave) (t : DWord) (kind : Nat) : State × Wave :=
  let who := s.whoOf s.cur w
  (s.trace s.cur who.pav who.ctx t kind, { w with pc := t })

/-- A computed target must be a multiple of 4 (R71). -/
def checkTarget (t : DWord) : Run DWord := if t.extractLsb' 0 2 = 0 then .ok t else trapAt .align 0 t

/-! ### Control transfer (R133) -/

/-- BRA. -/
def execBra (off : Off24) (s : State) : Host.Outcome State Fault Refusal :=
  issue (.bra off) s fun s w => .ok (s.goTo w (w.target off) 0)
/-- BRC. -/
def execBrc (off : Off24) (s : State) : Host.Outcome State Fault Refusal :=
  issue (.brc off) s fun s w => .ok (if w.exec &&& guardMask w ≠ 0 then s.goTo w (w.target off) 0 else (s, w))
/-- BRCA. -/
def execBrca (off : Off24) (s : State) : Host.Outcome State Fault Refusal :=
  issue (.brca off) s fun s w =>
    .ok (if w.exec ≠ 0 ∧ w.exec &&& ~~~(guardMask w) = 0 then s.goTo w (w.target off) 0 else (s, w))
/-- CALL. -/
def execCall (off : Off24) (s : State) : Host.Outcome State Fault Refusal :=
  issue (.call off) s fun s w => .ok (s.goTo { w with lr := w.pc } (w.target off) 1)
/-- CALLR. -/
def execCallr (a : Pair) (s : State) : Host.Outcome State Fault Refusal :=
  issue (.callr a) s fun s w =>
    match checkTarget (pairLane w.regs a w.leadLane) with
    | .error e => .error e
    | .ok t => .ok (s.goTo { w with lr := w.pc } t 1)
/-- RET. -/
def execRet (s : State) : Host.Outcome State Fault Refusal :=
  issue .ret s fun s w =>
    match checkTarget w.lr with
    | .error e => .error e
    | .ok t => .ok (s.goTo w t 2)
/-- JMPR. -/
def execJmpr (a : Pair) (s : State) : Host.Outcome State Fault Refusal :=
  issue (.jmpr a) s fun s w =>
    match checkTarget (pairLane w.regs a w.leadLane) with
    | .error e => .error e
    | .ok t => .ok (s.goTo w t 0)

/-! ### The mask stack (R64 to R66) -/

/-- RESUME of an entry. -/
def maskResume (x : DWord) : Word := loWord x
/-- PENDING of an entry. -/
def maskPending (x : DWord) : Word := hiWord x

/-- Entries that lie in memory: depths 1 to this (R65). -/
def Wave.spilled (w : Wave) : Nat := w.depth - w.masks.length

/-- Address of the spill slot of depth `d` (R65). -/
def Wave.slotAddr (w : Wave) (d : Nat) : DWord := w.fp - 512 + BitVec.ofNat 64 (8 * (d - 1))

/-- The entry of depth `d` is a LOOP entry. -/
def Wave.isLoop (w : Wave) (d : Nat) : Bool := w.kinds.getLsbD (d - 1)

/-- The access of the spill slot of depth `d` (R66). -/
def State.slotLane (s : State) (w : Wave) (kind : AccessKind) (d : Nat) : LaneAccess :=
  s.oneLane (s.whoOf s.cur w) kind false 32 (w.slotAddr d) 8

/-- Load spilled entries (R66): a fault on one is the instruction's own. -/
def State.fills (s : State) (w : Wave) (ds : List Nat) : Run (List DWord) :=
  match s.admitLanes w .read true (ds.map (s.slotLane w .read)) with
  | .error e => .error e
  | .ok l => .ok (l.map fun a => BitVec.ofNat 64 (leNat (s.laneBytes w a)))

/-- Store entries to their spill slots, relaxed at wave scope; every slot is checked before one is stored (R66). R66 gives
these accesses RC ordering whatever `WM` holds; the page's ORD still decides when a store is performed (assumption 55). -/
def State.spills (s : State) (w : Wave) (l : List (Nat × DWord)) : Run State :=
  let lanes := l.map fun x => (s.slotLane w .write x.1, leBytes x.2.toNat 8)
  match s.checkLanes .write true (lanes.map fun x => x.1) with
  | .error e => .error e
  | .ok _ =>
    match s.askLanes w (lanes.map fun x => { kind := .write, acc := x.1, data := x.2 }) with
    | .error e => .error e
    | .ok _ => .ok (lanes.foldl (fun s x => s.storeLanes (s.whoOf s.cur w) false [x.1] fun _ => x.2) s)

/-- Push an entry of a kind (R65). -/
def State.pushMask (s : State) (w : Wave) (x : DWord) (loop : Bool) : Run (State × Wave) :=
  if 64 ≤ w.depth then trapE .stackDepth
  else
    let bit : BitVec 64 := 1#64 <<< w.depth
    let w' := { w with depth := w.depth + 1, masks := (x :: w.masks).take 16,
                       kinds := if loop then w.kinds ||| bit else w.kinds &&& ~~~bit }
    match w.masks[15]? with
    | none => .ok (s, w')
    | some old =>
      match s.spills w [(w.depth - 15, old)] with
      | .error e => .error e
      | .ok s' => .ok (s', w')

/-- Remove the top entry, filling from memory past depth 16 (R65). -/
def State.popMask (s : State) (w : Wave) : Run Wave :=
  match w.masks with
  | [] => trapE .illegalOperand
  | _ :: rest =>
    let w' := { w with depth := w.depth - 1, masks := rest }
    if w.spilled = 0 then .ok w'
    else
      match s.fills w [w.spilled] with
      | .error e => .error e
      | .ok l => .ok { w' with masks := rest ++ l }

/-- The top entry, which must be of a kind (R135). -/
def Wave.topMask (w : Wave) (loop : Bool) : Run DWord :=
  match w.masks with
  | [] => trapE .illegalOperand
  | x :: _ => if w.isLoop w.depth = loop then .ok x else trapE .illegalOperand

/-- Depth of the innermost LOOP entry, 0 where there is none. -/
def Wave.innerLoop (w : Wave) : Nat := go w.depth
where
  /-- Search from depth `d` down. -/
  go : Nat → Nat
  | 0 => 0
  | d + 1 => if w.isLoop (d + 1) then d + 1 else go d

/-- Rewrite the spilled entries above depth `low`, highest first, and answer what each now holds (R66, R136). -/
def State.rewriteSpilled (s : State) (w : Wave) (f : Nat → DWord → DWord) (store : Bool) (low : Nat) : Run (State × List DWord) :=
  let ds := (((List.range w.spilled).map fun d => d + 1).filter fun d => decide (low < d)).reverse
  match s.fills w ds with
  | .error e => .error e
  | .ok l =>
    let new := ds.zipWith (fun d x => (d, f d x)) l
    match (if store then s.spills w new else .ok s) with
    | .error e => .error e
    | .ok s' => .ok (s', new.map fun x => x.2)

/-- Rewrite every entry above depth `low`: those in hardware, and the spilled ones in memory. Answers the entries. -/
def State.rewriteMasks (s : State) (w : Wave) (f : Nat → DWord → DWord) (store : Bool) (low : Nat) :
    Run (State × Wave × List DWord) :=
  match s.rewriteSpilled w f store low with
  | .error e => .error e
  | .ok (s', l) =>
    let masks := w.masks.mapIdx fun i x => if low < w.depth - i then f (w.depth - i) x else x
    .ok (s', { w with masks := masks }, masks.take (w.depth - low) ++ l)

/-! ### Divergence (R135) -/

/-- g of R135: lanes of `EXEC` whose guard holds. -/
def Wave.cond (w : Wave) : Word := w.exec &&& guardMask w

/-- Take the jump of a divergence instruction where `EXEC` is empty. -/
def State.jumpIfEmpty (s : State) (w : Wave) (off : Off24) : State × Wave :=
  if w.exec = 0 then s.goTo w (w.target off) 5 else (s, w)

/-- IF (R135). -/
def execIfLanes (off : Off24) (s : State) : Host.Outcome State Fault Refusal :=
  issue (.ifLanes off) s fun s w =>
    match s.pushMask w (joinWords w.exec (w.exec &&& ~~~w.cond)) false with
    | .error e => .error e
    | .ok (s', w') => .ok (s'.jumpIfEmpty { w' with exec := w.cond } off)

/-- ELSE (R135). -/
def execElseLanes (off : Off24) (s : State) : Host.Outcome State Fault Refusal :=
  issue (.elseLanes off) s fun s w =>
    match w.topMask false with
    | .error e => .error e
    | .ok x => .ok (s.jumpIfEmpty { w with exec := maskPending x, masks := joinWords (maskResume x) 0 :: w.masks.tail } off)

/-- ENDIF (R135). -/
def execEndIf (s : State) : Host.Outcome State Fault Refusal :=
  issue .endIf s fun s w =>
    match w.topMask false with
    | .error e => .error e
    | .ok x =>
      match s.popMask w with
      | .error e => .error e
      | .ok w' => .ok (s, { w' with exec := maskResume x })

/-- LOOP (R135). -/
def execLoopLanes (off : Off24) (s : State) : Host.Outcome State Fault Refusal :=
  issue (.loopLanes off) s fun s w =>
    match s.pushMask w (joinWords w.exec 0) true with
    | .error e => .error e
    | .ok (s', w') => .ok (s'.jumpIfEmpty { w' with exec := w.cond } off)

/-- The entry of depth `d` after `BREAK` or `CONT` of the lanes `g` out of the loop at depth `l`. -/
def leaveMask (g : Word) (l : Nat) (cont : Bool) (d : Nat) (x : DWord) : DWord :=
  if d = l then (if cont then joinWords (maskResume x) (maskPending x ||| g) else x)
  else joinWords (maskResume x &&& ~~~g) (maskPending x &&& ~~~g)

/-- `BREAK` and `CONT` (R135, R136): `low` is the highest depth left unread. -/
def leaveLoop (i : Instr) (off : Off24) (cont : Bool) (s : State) : Host.Outcome State Fault Refusal :=
  issue i s fun s w =>
    let l := w.innerLoop
    if l = 0 then trapE .illegalOperand
    else
      match s.rewriteMasks w (leaveMask w.cond l cont) true (if cont then l - 1 else l) with
      | .error e => .error e
      | .ok (s', w', _) =>
        let w' := { w' with exec := w.exec &&& ~~~w.cond }
        .ok (if w'.exec = 0 ∧ l = w.depth then s'.goTo w' (w.target off) 5 else (s', w'))

/-- BREAK (R135). -/
def execBreakLanes (off : Off24) (s : State) : Host.Outcome State Fault Refusal := leaveLoop (.breakLanes off) off false s
/-- CONT (R135). -/
def execContLanes (off : Off24) (s : State) : Host.Outcome State Fault Refusal := leaveLoop (.contLanes off) off true s

/-- ENDLOOP (R135). -/
def execEndLoop (off : Off24) (s : State) : Host.Outcome State Fault Refusal :=
  issue (.endLoop off) s fun s w =>
    match w.topMask true with
    | .error e => .error e
    | .ok x =>
      if w.exec ||| maskPending x ≠ 0 then
        .ok (s.goTo { w with exec := w.exec ||| maskPending x, masks := joinWords (maskResume x) 0 :: w.masks.tail }
          (w.target off) 5)
      else
        match s.popMask w with
        | .error e => .error e
        | .ok w' => .ok (s, { w' with exec := maskResume x })

/-! ### YIELD, TRAP, BRK, RTE -/

/-- YIELD (R149): the youngest age, and no selection in the next cycle. -/
def execYield (s : State) : Host.Outcome State Fault Refusal :=
  issue .yield s fun s w => .ok (s.bump, { w with age := s.fresh, yielded := some s.steps })

/-- TRAP (R168). -/
def execTrap (code : BitVec 16) (s : State) : Host.Outcome State Fault Refusal :=
  issueOwn (.trap code) s fun w =>
    if activeMask w = 0 then .ok w else trapAt .trapInsn (activeMask w) (zext64 code)

/-- BRK (R168). -/
def execBrk (code : BitVec 16) (s : State) : Host.Outcome State Fault Refusal :=
  issueOwn (.brk code) s fun w => trapAt .breakpoint w.exec (zext64 code)

/-- RTE (R168, R217). -/
def execRte (s : State) : Host.Outcome State Fault Refusal :=
  match s.wave s.cur with
  | none => .fault .noWave
  | some w =>
    match w.wsPriv, w.handler with
    | false, _ => .next (s.raiseTrap s.cur w { cause := .priv, lanes := 0, addr := 0 })
    | true, none => .next (s.raiseTrap s.cur w { cause := .illegalOperand, lanes := 0, addr := 0 })
    | true, some saved => .next (s.returnFromTrap s.cur w saved)

/-- A word that is no legal instruction (R75, R79 to R81): its checks 2 to 4 in their order. -/
def execIllegalInstructionWord (x : Word) (s : State) : Host.Outcome State Fault Refusal :=
  issueOwn .nop s fun w =>
    match decodeGyrix x with
    | .error .unassignedOpcode => trapE .illegalOpcode
    | .error .fieldKind => if x.extractLsb' 24 8 = 0xFA ∧ !w.wsPriv then trapE .priv else trapE .illegalOperand
    | .ok _ => .ok w

end Sys2Proof.Machine
end

