-- ==== Sys2Proof/Machine/Queue.lean ====
section
/-! DEFINITION. What waves and distributors share: records (R138), queue rings (R396 to R399), the retirement of an
instruction with its after-traps (R206, R213, R218, R437), barriers (R150), early triggers (R142, R408), and the end of
waves and blocks (R139, R140). -/

namespace Sys2Proof.Machine

/-! ### Records (R137, R138) -/

/-- CODE of a record. -/
def recCode (r : Line) : DWord := BitVec.ofNat 64 (lineField r 0 8)
/-- FRAME of a record. -/
def recFrame (r : Line) : DWord := BitVec.ofNat 64 (lineField r 8 8)
/-- JOIN of a record. -/
def recJoin (r : Line) : Nat := lineField r 16 4
/-- Queue class of a record. -/
def recClass (r : Line) : Nat := lineField r 21 1 % 4
/-- Grid flag. -/
def recGrid (r : Line) : Bool := decide (lineField r 22 1 % 2 = 1)
/-- Paired flag. -/
def recPaired (r : Line) : Bool := decide (lineField r 22 1 / 2 % 2 = 1)
/-- Persistent flag. -/
def recPersistent (r : Line) : Bool := decide (lineField r 22 1 / 4 % 2 = 1)
/-- WAVES of a record. -/
def recWaves (r : Line) : Nat := lineField r 23 1
/-- Argument word `k`. -/
def recArg (r : Line) (k : Nat) : Word := BitVec.ofNat 32 (lineField r (24 + 4 * k) 4)

/-- Well-formed (R138). -/
def recordOk (r : Line) : Bool :=
  let n := recWaves r
  decide (lineField r 0 8 % 4 = 0) && decide (lineField r 21 1 < 4) && decide (lineField r 22 1 < 8)
    && (!recPersistent r || recGrid r)
    && (if recPaired r then decide (n % 2 = 0) && decide (2 ≤ n) && decide (n ≤ 64) else decide (1 ≤ n) && decide (n ≤ 32))

/-! ### Queues (R143, R396 to R399) -/

/-- RING of a queue. -/
def State.queueRing (s : State) (pav q : Nat) : Nat := lineField (s.desc pav q) 0 8
/-- CAP of a queue. -/
def State.queueCap (s : State) (pav q : Nat) : Nat := lineField (s.desc pav q) 8 4
/-- CTX of a queue. -/
def State.queueCtx (s : State) (pav q : Nat) : Nat := lineField (s.desc pav q) 18 2
/-- A created queue of a kind: queues are numbered 0 to 255 (R143). -/
def State.created (s : State) (pav q : Nat) (items : Bool) : Bool :=
  decide (q < 256) && s.queueEnabled pav q && (s.itemQueue pav q == items)
/-- Entries present. -/
def State.queueCount (s : State) (pav q : Nat) : Nat := ((s.queue pav q).tail - (s.queue pav q).head).toNat
/-- Address of entry number `n` of the ring. -/
def State.entryAddr (s : State) (pav q n : Nat) : Nat := s.queueRing pav q + 64 * (n % s.queueCap pav q)
/-- The head entry. -/
def State.headEntry (s : State) (pav q : Nat) : Line :=
  BitVec.ofNat 512 (s.devRead (s.entryAddr pav q (s.queue pav q).head.toNat) 64)

/-- The poisoned line that the head entry lies on. -/
def State.headPoison (s : State) (pav q : Nat) : Option Nat := s.poisonedLine (s.entryAddr pav q (s.queue pav q).head.toNat) 64

/-- Append one entry at the tail (R399). -/
def State.appendEntry (s : State) (pav q : Nat) (x : Line) : State :=
  let st := s.queue pav q
  (s.devWrite (s.entryAddr pav q st.tail.toNat) 64 x.toNat).setQueue pav q { st with tail := st.tail + 1 }

/-- Take the head entry. -/
def State.takeEntry (s : State) (pav q : Nat) : State :=
  let st := s.queue pav q
  s.setQueue pav q { st with head := st.head + 1 }

/-- Record an error of a queue: ERR, ERRCNT, and the pavilion event (R398, R454). -/
def State.queueError (s : State) (pav q err : Nat) (dropped : Bool) : State :=
  let st := s.queue pav q
  let st := { st with err := BitVec.ofNat 8 err, errcnt := st.errcnt + 1, dropped := if dropped then st.dropped + 1 else st.dropped }
  (s.setQueue pav q st).pavEvent pav 1 (s.queueCtx pav q) q err

/-- Append for a wave: the status of R145. -/
def State.enqueue (s : State) (pav q : Nat) (x : Line) : State × Nat :=
  if !(s.created pav q true || s.created pav q false) then (s, 2)
  else if s.queueCap pav q ≤ s.queueCount pav q then (s, 1)
  else if s.created pav q false ∧ !recordOk x then (s, 3)
  else (s.appendEntry pav q x, 0)

/-- Hand a record to the resume list of its class on a die (R148, R401). -/
def State.pushResume (s : State) (die : Nat) (e : ResumeEntry) : State :=
  { s with dists := s.dists.mapIdx fun i d =>
      if i = die then { d with resume := d.resume.mapIdx fun c l => if c = recClass e.record then l ++ [e] else l } else d }

/-! ### Retirement of an instruction (R205, R206, R218, R437) -/

/-- What follows the retirement of the instruction at `pc` of a wave: its count (R440), PAST of the open entries (R213),
then the after-traps `WATCHPOINT` (R437) and `STEP` (R218); `lanes` are those that were active, and `step` is `WS.STEP` as the
instruction found it (R94). A watchpoint is delivered at once, open log entries or not (assumption 56). -/
def State.afterRetire (s : State) (k : Nat) (pc : DWord) (lanes : Word) (step : Bool) : State :=
  match s.wave k with
  | none => s
  | some w =>
    if !w.retired then s
    else
      let who := s.whoOf k w
      let s := s.count who.core who.pav who.ctx 1 1
      let w := { w with retired := false, skipBreak := false,
                        log := w.log.map fun e => { e with past := e.past + 1 } }
      if w.wait ≠ .none then s.setWave k w
      else match w.watchHit with
        | some a => s.takeTrap k w { cause := .watchpoint, lanes := lanes, addr := a } pc w.pc 0
        | none =>
          if step then s.takeTrap k w { cause := .step, lanes := lanes, addr := 0 } pc w.pc 0
          else s.setWave k w

/-- Let a waiting wave's instruction complete: it retires at the next word, on a halted core once that runs again (R221, R438). -/
def State.completeWait (s : State) (k : Nat) (f : Wave → Wave) : State :=
  match s.wave k with
  | none => s
  | some w =>
    if (s.core (coreOf k)).halted then s.setWave k { w with wait := .passed }
    else
    let w' := f { w with wait := .none, pc := w.pc + 4, answers := [], retired := true }
    ((s.flushL1 (coreOf k)).setWave k w').afterRetire k w.pc (activeMask w) w.wsStep

/-! ### Barriers (R150) -/

/-- A wave that waits at barrier `n` goes on. -/
def State.passBarrier (n : BitVec 4) (s : State) (k : Nat) : State :=
  match s.wave k with
  | none => s
  | some w => if w.wait = .barrier n then s.completeWait k id else s

/-- Open barrier `n` of a block where every wave left has arrived: all of them go on and the count resets. -/
def State.openBarrier (s : State) (b n : Nat) : State :=
  match s.block b with
  | none => s
  | some x =>
    let arrived := x.barriers[n]?.getD []
    if arrived.isEmpty ∨ !(x.alive.all fun k => arrived.contains k) then s
    else arrived.foldl (State.passBarrier (BitVec.ofNat 4 n)) (s.setBlock b { x with barriers := x.barriers.setIfInBounds n [] })

/-! ### Triggers and ends (R139, R140, R142, R408) -/

/-- The block has executed `TRIG` or ended (R142, R408). -/
def State.triggerBlock (s : State) (b : Nat) : State :=
  match s.block b with
  | none => s
  | some x =>
    if x.triggered then s
    else
      let s := s.setBlock b { x with triggered := true }
      match Assoc.find s.grids x.grid with
      | none => s
      | some g => { s with grids := Assoc.set s.grids x.grid { g with trigged := g.trigged + 1 } }

/-- Perform every unperformed store of the block's waves (R408). -/
def State.releaseBlock (s : State) (x : Block) : State := s.performIf fun p =>
  x.agents.contains p.agent && (!p.unordered || s.mixed p.agent)

/-- End a wave that owes nothing (R139): its slot and rows return, its block's barriers may open, and the last wave of a
block triggers it. -/
def State.endWave (s : State) (k : Nat) (w : Wave) : State :=
  let s := { s with waves := Assoc.erase s.waves k }
  match s.block w.block with
  | none => s
  | some x =>
    let x' := { x with alive := dropIf (fun j => j == k) x.alive, barriers := x.barriers.map fun l => dropIf (fun j => j == k) l }
    let s := s.setBlock w.block x'
    let s := (if x'.alive.isEmpty then s.releaseBlock x' else s).triggerBlock w.block
    (List.range 16).foldl (fun s n => s.openBarrier w.block n) s

/-- Engine work of a block that has not retired (R140). -/
def State.blockBusy (s : State) (b : Nat) : Bool :=
  (s.cores.any fun c => (c.2.chans.toList.any fun l => l.any fun t => t.block == b) || (c.2.fifo.any fun e => e.block == b)
      || (c.2.walkers.any fun x => x.2.block == b) || (c.2.inbox.any fun m => m.block == b))
    || (s.colls.any fun m => m.block == b)
    || (s.units.any fun u => (u.2.ops ++ u.2.sent).any fun o => o.block == b)

end Sys2Proof.Machine
end

