-- ==== Sys2Proof/Machine/Record.lean ====
section
/-! DEFINITION. Continuation records and wave life (R139 to R148), barriers (R150), and the steps that complete them. -/

namespace Sys2Proof.Machine

/-! ### EXIT and TRIG -/

/-- An entry without the lanes `e` (R141). -/
def exitMask (e : Word) (x : DWord) : DWord := joinWords (maskResume x &&& ~~~e) (maskPending x &&& ~~~e)

/-- EXIT (R141): the active lanes retire, and the wave ends when no lane is left in `EXEC` or the mask stack; also where a listing
reaches it under a guard (R225, assumption 64). -/
def execExit (s : State) : Host.Outcome State Fault Refusal :=
  issue .exit s fun s w =>
    let e := activeMask w
    let rest := w.exec &&& ~~~e
    if e = 0 ∧ rest ≠ 0 then .ok (s, w)
    else
      match s.rewriteMasks w (fun _ x => exitMask e x) (decide (e ≠ 0)) 0 with
      | .error r => .error r
      | .ok (s', w', entries) =>
        if rest ≠ 0 ∨ (entries.any fun x => x ≠ 0) then .ok (s', { w' with exec := rest })
        else .ok ((s'.release w.uid false).triggerBlock w.block, { w' with exec := 0, wait := .ending })

/-- TRIG (R142): a device-scope release of the executing wave. -/
def execTrig (s : State) : Host.Outcome State Fault Refusal :=
  issue .trig s fun s w => .ok ((s.release w.uid false).triggerBlock w.block, w)

/-! ### SPAWN and ENQ -/

/-- The 64 bytes a lane reads, as a line. -/
def State.laneLine (s : State) (w : Wave) (a : LaneAccess) : Line := lineOf (s.laneBytes w a)

/-- Misaligned lanes trap `ALIGN` before anything else (R144, R145). -/
def aligned64 (act : Word) (va : Nat → DWord) : Run Unit :=
  let bad := maskOf fun i => act.getLsbD i && decide ((va i).toNat % 64 ≠ 0)
  if bad = 0 then .ok () else trapAt .align bad (va (lowestLane bad))

/-- SPAWN before its appends: each active lane's queue and record (R144). Of several queues with more records than they hold,
`TRAPLANES` names the lanes of the lowest lane's (assumption 63). -/
def State.spawnChecks (s : State) (w : Wave) (a : Pair) (b : Reg) : Run (List (Nat × Nat × Line)) :=
  let act := activeMask w
  let who := s.whoOf s.cur w
  let va (i : Nat) : DWord := pairLane w.regs a i
  match aligned64 act va with
  | .error e => .error e
  | .ok _ =>
    match s.admitLanes w .read false (s.laneAccesses who .read false act va 64) with
    | .error e => .error e
    | .ok l =>
      let recs := l.map fun x => (x.lane, (lane w.regs b x.lane).toNat, s.laneLine w x)
      let bad := maskOf fun i => recs.any fun r => r.1 == i && !(s.created who.pav r.2.1 false && recordOk r.2.2)
      let wanted (q : Nat) : Nat := (recs.filter fun r => r.2.1 == q).length
      if bad ≠ 0 then trapAt .illegalOperand bad 0
      else match recs.find? fun r => decide (s.queueCap who.pav r.2.1 < wanted r.2.1) with
        | some r => trapAt .illegalOperand (maskOf fun i => recs.any fun x => x.1 == i && x.2.1 == r.2.1) 0
        | none => .ok recs

/-- SPAWN (R144): waits until every target queue has room for all its records, then appends in lane order. -/
def spawnBody (a : Pair) (b : Reg) (s : State) (w : Wave) : Run (State × Wave) :=
  match s.spawnChecks w a b with
  | .error e => .error e
  | .ok recs =>
    let pav := (s.whoOf s.cur w).pav
    let full (q : Nat) : Bool :=
      decide (s.queueCap pav q < s.queueCount pav q + (recs.filter fun r => r.2.1 == q).length)
    if recs.isEmpty then .ok (s, w)
    else if recs.any fun r => full r.2.1 then .error (.wait (.spawnRoom a b))
    else .ok (recs.foldl (fun s r => s.appendEntry pav r.2.1 r.2.2) (s.release w.uid false), w)

/-- SPAWN (R144). -/
def execSpawn (a : Pair) (b : Reg) (s : State) : Host.Outcome State Fault Refusal := issue (.spawn a b) s (spawnBody a b)

/-- Let the wave in slot `k` execute its held instruction again, where its wait is of the kind `f` recognises and its core runs. -/
def State.rerun (s : State) (k : Nat) (f : Wait → Option (State → Host.Outcome State Fault Refusal)) :
    Host.Outcome State Fault Refusal :=
  match s.wave k with
  | none => .next s
  | some w =>
    match (if (s.core (coreOf k)).halted then none else f w.wait) with
    | none => .next s
    | some run =>
      match run { s with cur := k } with
      | .next s' => .next { s'.afterRetire k w.pc (activeMask w) w.wsStep with cur := s.cur }
      | r => r

/-- SPAWN_APPEND (R144): a waiting SPAWN finds room. -/
def execSpawnAppend (wave : Nat) (s : State) : Host.Outcome State Fault Refusal :=
  s.rerun wave fun r => match r with
    | .spawnRoom a b => some (execSpawn a b)
    | _ => none

/-- ENQ (R145). -/
def enqBody (d : Reg) (a : Pair) (b : Reg) (s : State) (w : Wave) : Run (State × Wave) :=
  let act := activeMask w
  let who := s.whoOf s.cur w
  let va (i : Nat) : DWord := pairLane w.regs a i
  match aligned64 act va with
  | .error e => .error e
  | .ok _ =>
    match s.admitLanes w .read false (s.laneAccesses who .read false act va 64) with
    | .error e => .error e
    | .ok l =>
      let (s', status) := l.foldl (fun (acc : State × List (Nat × Nat)) x =>
        let r := acc.1.enqueue who.pav (lane w.regs b x.lane).toNat (s.laneLine w x)
        (r.1, acc.2 ++ [(x.lane, r.2)])) (if act = 0 then s else s.release w.uid false, [])
      match w.put32 act d (fun i => BitVec.ofNat 32 ((Assoc.find status i).getD 0)) .g with
      | .error e => .error e
      | .ok w' => .ok (s', w')

/-- ENQ (R145). -/
def execEnq (d : Reg) (a : Pair) (b : Reg) (s : State) : Host.Outcome State Fault Refusal := issue (.enq d a b) s (enqBody d a b)

/-! ### DEQ (R146) -/

/-- Write the 16 words of an item at every lane of `EXEC`, with one budget check. -/
def Wave.putItem (w : Wave) (d : Reg) (x : Line) : Run Wave :=
  w.commit (fun R => (List.range 16).foldl (fun R n =>
    write32 R w.exec (regAt d n) (fun _ => BitVec.ofNat 32 (lineField x (4 * n) 4)) .u) R) 0 w.exec

/-- DEQ (R146): the longest-waiting wave takes the head item. An item on a poisoned line of the ring is consumed poison (R429). -/
def execDeq (d q : Reg) (s : State) : Host.Outcome State Fault Refusal :=
  issue (.deq d q) s fun s w =>
    let pav := (s.whoOf s.cur w).pav
    let n := (lane w.regs q w.leadLane).toNat
    if w.exec = 0 then .ok (s, w)
    else if !s.created pav n true then trapE .illegalOperand
    else
      match w.putItem d (s.headEntry pav n) with
      | .error e => .error e
      | .ok w' =>
        let st := s.queue pav n
        let line := if st.waiting.contains s.cur then st.waiting else st.waiting ++ [s.cur]
        if s.queueCount pav n = 0 ∨ line.head? ≠ some s.cur then
          .ok (s.setQueue pav n { st with waiting := line }, { w with pc := w.pc - 4, wait := .item pav n d })
        else match s.headPoison pav n with
          | some bad => trapPoison w.exec 0 bad
          | none => .ok ((s.setQueue pav n { st with waiting := line.tail }).takeEntry pav n, w')

/-- DEQ_DELIVER (R146): the wave that has waited longest receives the head item. -/
def execDeqDeliver (pav q : Nat) (s : State) : Host.Outcome State Fault Refusal :=
  let st := s.queue pav q
  match st.waiting with
  | [] => .next s
  | k :: rest =>
    match s.wave k with
    | none => .next (s.setQueue pav q { st with waiting := rest })
    | some w =>
      match w.wait with
      | .item _ _ d =>
        if s.queueCount pav q = 0 ∨ !s.created pav q true ∨ (s.core (coreOf k)).halted then .next s
        else
          match w.putItem d (s.headEntry pav q) with
          | .ok w' =>
            match s.headPoison pav q with
            | some bad => .next (s.raiseTrap k { w with wait := .none } { cause := .poison, lanes := w.exec, addr := 0, line := bad })
            | none => .next (((s.setQueue pav q { st with waiting := rest }).takeEntry pav q).completeWait k fun x =>
              { x with regs := w'.regs, log := w'.log })
          | .error _ => .next s
      | _ => .next (s.setQueue pav q { st with waiting := rest })

/-! ### SUSPEND and JOIN (R148) -/

/-- The record of lane j: global window, then alignment, then the read, then its form (R148). -/
def State.handRecord (s : State) (w : Wave) (a : Pair) : Run (DWord × Line) :=
  let va := pairLane w.regs a w.leadLane
  if globalEnd ≤ va.toNat then trapAt .accessViolation 0 va
  else if va.toNat % 64 ≠ 0 then trapAt .align 0 va
  else
    match s.oneAccess w (s.whoOf s.cur w) .read false true 32 va 64 with
    | .error e => .error e
    | .ok l =>
      let r := lineOf (s.readOne w l)
      if recordOk r then .ok (va, r) else trapE .illegalOperand

/-- Hand a record to the distributor of the wave's die and end the wave. -/
def State.handOver (s : State) (w : Wave) (r : Line) : State × Wave :=
  let who := s.whoOf s.cur w
  (s.pushResume (dieOf who.core) { record := r, pav := who.pav, ctx := who.ctx, byPriv := w.wsPriv, carried := none },
   { w with wait := .ending })

/-- SUSPEND (R148, R459). -/
def execSuspend (a : Pair) (s : State) : Host.Outcome State Fault Refusal :=
  issue (.suspend a) s fun s w =>
    if w.exec = 0 then .ok (s, w)
    else
      match s.handRecord w a with
      | .error e => .error e
      | .ok (_, r) => .ok ((s.release w.uid false).handOver w r)

/-- JOIN (R148, R459): an acq_rel atomic on the counter; one that is 0 traps and writes nothing. -/
def execJoin (a : Pair) (s : State) : Host.Outcome State Fault Refusal :=
  issue (.join a) s fun s w =>
    if w.exec = 0 then .ok (s, w)
    else
      match s.handRecord w a with
      | .error e => .error e
      | .ok (va, r) =>
        let who := s.whoOf s.cur w
        let at_ := [s.oneLane who .atomic true 32 (va + 16) 4]
        match s.checkLanes .atomic true at_ with
        | .error e => .error e
        | .ok _ =>
          if recJoin r = 0 then trapE .illegalOperand
          else match (s.askLanes w (at_.map fun y => { kind := .atomic, acc := y, data := leBytes 0xFFFFFFFF 4 })).releasing (some 4) with
            | .error e => .error e
            | .ok l =>
              let spans := l.flatMap LaneAccess.ok
              let s' := ((s.releaseAt who 4 false).acquireAt who 4).beforeAtomic w.uid spans
              let n := leNat (s'.homeBytes spans)
              if n = 0 then trapE .illegalOperand
              else
                let r' := lineSet r 16 4 (n - 1)
                let s' := s'.engineStore who.ctxKey (spanCells spans (leBytes (n - 1) 4))
                if n - 1 = 0 then .ok (s'.handOver w r') else .ok (s', { w with wait := .ending })

/-! ### BAR (R150) -/

/-- BAR (R150): arrives, releases, and waits until the barrier opens. -/
def execBar (n : BitVec 4) (s : State) : Host.Outcome State Fault Refusal :=
  issue (.bar n) s fun s w =>
    let s := s.release w.uid false
    match s.block w.block with
    | none => .ok (s, w)
    | some x =>
      let arrived := x.barriers[n.toNat]?.getD []
      let arrived := if arrived.contains s.cur then arrived else arrived ++ [s.cur]
      let others := dropIf (fun k => k == s.cur) arrived
      if x.alive.all fun k => arrived.contains k then
        .ok (others.foldl (State.passBarrier n)
          (s.setBlock w.block { x with barriers := x.barriers.setIfInBounds n.toNat [] }), w)
      else
        .ok (s.setBlock w.block { x with barriers := x.barriers.setIfInBounds n.toNat arrived },
          { w with pc := w.pc - 4, wait := .barrier n })

/-! ### The ends of waves and blocks -/

/-- WAVE_END (R139): once every result owed to the wave's registers has arrived. Its slot shows where it ended (R442). -/
def execWaveEnd (wave : Nat) (s : State) : Host.Outcome State Fault Refusal :=
  match s.wave wave with
  | none => .next s
  | some w => if w.wait = .ending ∧ w.owed.isEmpty ∧ w.log.isEmpty then
      .next ({ s with exited := Assoc.set s.exited wave (w.block, w.pc - 4) }.endWave wave w) else .next s

/-- BLOCK_COMPLETE (R140, R306): every wave has ended and every engine operation has retired. -/
def execBlockComplete (block : Nat) (s : State) : Host.Outcome State Fault Refusal :=
  match s.block block with
  | none => .next s
  | some x =>
    if !x.alive.isEmpty ∨ s.blockBusy block ∨ ((s.pav x.pav).busy ∧ namesCtx (s.pav x.pav).goCtx x.ctx) then .next s
    else
      let s := { s with
        blocks := Assoc.erase s.blocks block,
        exited := dropIf (fun x => x.2.1 == block) s.exited,
        units := s.units.map fun (u : Nat × MatrixUnit) => (u.1,
          if u.2.owner = some block then { ({} : MatrixUnit) with redx := u.2.redx } else u.2) }
      match Assoc.find s.grids x.grid with
      | none => .next s
      | some g =>
        let g := { g with complete := g.complete + 1 }
        if g.complete = g.x * g.y * g.z then .next { s with grids := Assoc.erase s.grids x.grid }
        else .next { s with grids := Assoc.set s.grids x.grid g }

end Sys2Proof.Machine
end

