-- ==== Sys2Proof/Machine/Memory.lean ====
section
/-! DEFINITION. Loads and stores (R151 to R156), compressed chunks (R157 to R160) and atomics (R161, R162). -/

namespace Sys2Proof.Machine

/-- Types of loads and stores (R151). -/
def setMem (t : ETy) : Bool := decide (t.code ≤ 11) || t == .b128

/-- Bytes of an access of a type. -/
def accessSize (t : ETy) : Nat := t.bytes

/-! ### Addresses (the table of R151) -/

/-- Where the lanes of an access lie: their addresses, and whether every lane has the same one. -/
structure Where where
  va : Nat → DWord
  uniform : Bool
  /-- `LDS` and `STS`: an offset in the block's own allocation (R153). -/
  own : Bool

/-- `LD` and `ST`: base plus a scaled offset. -/
def Wave.atImm (w : Wave) (a : Pair) (imm : BitVec 8) : Where :=
  let off : DWord := BitVec.ofInt 64 (imm.toInt * (accessSize (wmET w.wm) : Int))
  { va := fun i => pairLane w.regs a i + off, uniform := shape64 w.regs a == .u, own := false }

/-- `LDX` and `STX`: base plus a signed 32-bit byte offset. -/
def Wave.atReg (w : Wave) (a : Pair) (b : Reg) : Where :=
  { va := fun i => pairLane w.regs a i + sext64 (lane w.regs b i),
    uniform := shape64 w.regs a == .u && shape32 w.regs b == .u, own := false }

/-- `LDS` and `STS`: an offset computed exactly; a negative one is out of every bound (R153). -/
def Wave.atScratch (w : Wave) (a : Reg) (imm : BitVec 8) : Where :=
  let off := imm.toInt * (accessSize (wmET w.wm) : Int)
  { va := fun i => BitVec.ofInt 64 ((lane w.regs a i).toNat + off), uniform := shape32 w.regs a == .u, own := true }

/-- Checks 1 to 4 of an `LDS` or `STS` access (R153). -/
def State.checkScratch (s : State) (who : Who) (off : DWord) (n : Nat) : Except AccFail (List Span) :=
  match s.peerAllocation who.block who.core with
  | none => .error .bounds
  | some (base, size) =>
    if off.toInt < 0 ∨ (size : Int) < off.toInt + (n : Int) then .error .bounds
    else .ok [{ key := scratchKey who.core (base + off.toNat), len := n, ord := 1, cache := 0, pub := false, por := false,
                partner := false, scratch := true, va := off.toNat }]

/-- The accesses of a load or store. -/
def State.whereAccesses (s : State) (who : Who) (kind : AccessKind) (act : Word) (x : Where) (n : Nat) : List LaneAccess :=
  if x.own then (lanesOf act).map fun i => { lane := i, va := x.va i, spans := s.checkScratch who (x.va i) n }
  else s.laneAccesses who kind false act x.va n

/-- A scratchpad access that a held range of the core's scoreboard overlaps (R153, R196). -/
def State.rangeHeld (s : State) (who : Who) (l : List LaneAccess) : Bool :=
  (s.core who.core).chans.toList.any fun c => c.any fun t =>
    match t.range with
    | none => false
    | some (lo, hi) => l.any fun a => a.ok.any fun x =>
        decide (x.key - scratchKey who.core 0 ≤ hi) && decide (lo < x.key - scratchKey who.core 0 + x.len)

/-! ### Loads (R151 to R155) -/

/-- A loaded element, extended into the lane (R82, R86, R151). -/
def loadedLane (t : ETy) (bs : List Byte) : DWord :=
  let x := BitVec.ofNat 64 (leNat bs)
  if t.isInt then t.wrap (t.value x) else x

/-- Write a loaded value: one register or pair, or four registers under b128. -/
def writeLoaded (R : Regs) (act : Word) (t : ETy) (d : Reg) (bytes : Nat → List Byte) (sh : Shape) : Regs :=
  if t = .b128 then
    (List.range 4).foldl (fun R k =>
      write32 R act (regAt d k) (fun i => BitVec.ofNat 32 (leNat (((bytes i).drop (4 * k)).take 4))) sh) R
  else writeT R act t d (fun i => loadedLane t (bytes i)) sh

/-- Whether the order code is sc (R84). -/
def isSc (wm : Word) : Bool := wmMO wm == 4#3
/-- Release, acq_rel or sc: a store of that order is a release at its scope (R154, R185). -/
def releases (wm : Word) : Bool := decide (2 ≤ (wmMO wm).toNat)
/-- Acquire, acq_rel or sc: a load of that order is an acquire at its scope (R154, R185). -/
def acquires (wm : Word) : Bool := wmMO wm == 1#3 || wmMO wm == 3#3 || isSc wm

/-- The scope at which an access is a release, as a store or an atomic is one: none below release order, and none on UO pages
(R182). -/
def releaseScope (wm : Word) (l : List LaneAccess) : Option (BitVec 3) :=
  if releases wm && ordersAny l then some (wmSC wm) else none

/-- What the order of an access makes happen before it. -/
def State.orderStore (s : State) (who : Who) (wm : Word) (l : List LaneAccess) : State :=
  match releaseScope wm l with
  | some scope => s.releaseAt who scope false
  | none => s

/-- The acquire, as a load or an atomic has it; an sc load reads the home at every scope (R188). -/
def State.orderLoad (s : State) (who : Who) (wm : Word) (l : List LaneAccess) : State :=
  if acquires wm && ordersAny l then
    let s := s.acquireAt who (wmSC wm)
    if isSc wm then s.flushL1 who.core else s
  else s

/-- Global lines of this card that accesses touch. -/
def accessLines (l : List LaneAccess) : List Nat := spanLines ((l.flatMap LaneAccess.ok).filter fun x => !x.partner)

/-- Lines that a load takes into the L1: those of pages it serves, unless the load acquires, bypasses the L1 or is under the
read-only hint (R154, R178, R179). -/
def l1Takes (wm : Word) (l : List LaneAccess) : Bool :=
  !acquires wm && decide ((wmCH wm).toNat < 2) && (l.flatMap LaneAccess.ok).all Span.cached

/-- Lines of a load that its core's L1 does not give. -/
def State.missedLines (s : State) (core : Nat) (wm : Word) (l : List LaneAccess) : List Nat :=
  (accessLines l).filter fun n => !(l1Takes wm l && (s.l1Line core n).isSome && Config.l1Holds s.steps n)

/-- A load (R151 to R155). An `LDS` over a held range does not issue (R196). A global load that misses L1 owes its registers until
its data arrives (R62, R68). -/
def loadBody (d : Reg) (at_ : Wave → Where) (s : State) (w : Wave) : Run (State × Wave) :=
  let t := wmET w.wm
  match accept setMem t [d] with
  | .error e => .error e
  | .ok _ =>
    let act := activeMask w
    let x := at_ w
    let n := accessSize t
    let who := s.whoOf s.cur w
    let all := s.whereAccesses who .read act x n
    if x.own ∧ (firstFail all).isNone ∧ s.rangeHeld who all then .error (.wait .range)
    else match s.admitLanes w .read false all with
    | .error e => .error e
    | .ok l =>
      if act = 0 then .ok (s, w)
      else
        let s := s.orderLoad who w.wm l
        let bytes := l.map fun a => (a.lane, s.readSpans who.core w a.ok)
        match w.commit (fun R => writeLoaded R act t d (fun i => (Assoc.find bytes i).getD []) (if x.uniform then .u else .g)) 0 act with
        | .error e => .error e
        | .ok w' =>
          let lines := s.missedLines who.core w.wm l
          let w' := if lines.isEmpty then w' else { w' with owed := w'.owed ++ [{ pc := w.pc - 4, regs := regsOf t d, lines := lines }] }
          let done := if x.uniform then 1 else l.length
          let s := (s.countBytes who (done * n) 0 lines.length).fillL1 who.core (l1Takes w.wm l) (accessLines l)
          .ok (s, if x.own then w' else s.watch s.cur w' true false (lanesWatched l n))

/-- LD (R151). -/
def execLd (d : Reg) (a : Pair) (imm : BitVec 8) (s : State) : Host.Outcome State Fault Refusal :=
  issue (.ld d a imm) s (loadBody d fun w => w.atImm a imm)
/-- LDX (R151). -/
def execLdx (d : Reg) (a : Pair) (b : Reg) (s : State) : Host.Outcome State Fault Refusal :=
  issue (.ldx d a b) s (loadBody d fun w => w.atReg a b)
/-- LDS (R153). -/
def execLds (d a : Reg) (imm : BitVec 8) (s : State) : Host.Outcome State Fault Refusal :=
  issue (.lds d a imm) s (loadBody d fun w => w.atScratch a imm)

/-! ### Stores (R151 to R155) -/

/-- The bytes a lane stores (R151). -/
def Wave.storedBytes (w : Wave) (t : ETy) (d : Reg) (i : Nat) : List Byte :=
  if t = .b128 then (List.range 4).flatMap fun k => leBytes (lane w.regs (regAt d k) i).toNat 4
  else leBytes (laneT w.regs t d i).toNat (accessSize t)

/-- The data register of a store holds one value in every lane: each register of it is U. -/
def Wave.storesU (w : Wave) (t : ETy) (d : Reg) : Bool := (regsOf t d).all fun r => shape32 w.regs r == .u

/-- A store (R151 to R155). Under the full mask, one whose address and data are both U makes one access. -/
def storeBody (d : Reg) (at_ : Wave → Where) (s : State) (w : Wave) : Run (State × Wave) :=
  let t := wmET w.wm
  match accept setMem t [d] with
  | .error e => .error e
  | .ok _ =>
    let act := activeMask w
    let x := at_ w
    let n := accessSize t
    let who := s.whoOf s.cur w
    let data (i : Nat) : List Byte := w.storedBytes t d i
    let all := s.whereAccesses who .write act x n
    match s.checkLanes .write false all with
    | .error e => .error e
    | .ok _ =>
      let l := if act = fullMask ∧ x.uniform ∧ w.storesU t d then all.take 1 else all
      if act = 0 then .ok (s, w)
      else if x.own ∧ s.rangeHeld who l then .error (.wait .range)
      else match (s.askLanes w (l.map fun a => { kind := .write, acc := a, data := data a.lane })).releasing (releaseScope w.wm l) with
        | .error e => .error e
        | .ok l =>
          let s := s.orderStore who w.wm l
          let s := (s.storeLanes who (isSc w.wm) l data).countBytes who 0 (l.length * n) 0
          .ok (s, if x.own then w else s.watch s.cur w false true (lanesWatched l n))

/-- ST (R151). -/
def execSt (d : Reg) (a : Pair) (imm : BitVec 8) (s : State) : Host.Outcome State Fault Refusal :=
  issue (.st d a imm) s (storeBody d fun w => w.atImm a imm)
/-- STX (R151). -/
def execStx (d : Reg) (a : Pair) (b : Reg) (s : State) : Host.Outcome State Fault Refusal :=
  issue (.stx d a b) s (storeBody d fun w => w.atReg a b)
/-- STS (R153). -/
def execSts (d a : Reg) (imm : BitVec 8) (s : State) : Host.Outcome State Fault Refusal :=
  issue (.sts d a imm) s (storeBody d fun w => w.atScratch a imm)

/-- The lines that a prefetch brings (R156): of each lane's address those in the global window, mapped with R, in pages that the L1
serves, and clean; other requests are dropped. -/
def State.prefLines (s : State) (who : Who) (act : Word) (va : Nat → DWord) : List Nat :=
  distinct ((lanesOf act).flatMap fun i =>
    let line := (va i).toNat / 64 * 64
    if globalEnd ≤ line then []
    else match s.resolve who .read false line 64 with
      | .error _ => []
      | .ok l => if l.all fun x => x.cached && !s.spanPoisoned x then spanLines l else [])

/-- PREF (R156): the lines go into the core's L1, or under the bypass hint only into L2, which holds no line of its own in the
model (assumption 13). -/
def execPref (a : Pair) (imm : BitVec 8) (s : State) : Host.Outcome State Fault Refusal :=
  issue (.pref a imm) s fun s w =>
    let who := s.whoOf s.cur w
    let lines := s.prefLines who (activeMask w) fun i => pairLane w.regs a i + BitVec.ofInt 64 (imm.toInt * 64)
    .ok (if wmCH w.wm = 3 then s else s.fillL1 who.core true lines, w)

/-! ### Compressed chunks (R157 to R160) -/

/-- The structure's header: COUNT, NZ, CAP (R157). -/
structure ZHead where
  count : Nat
  nz : Nat
  cap : Nat
  deriving DecidableEq, Repr

/-- ceil(n / 8): the bytes of MASK. -/
def maskBytes (n : Nat) : Nat := (n + 7) / 8

/-- Checks 1 and 2 of R158, with the reads of the header. R157 places the base in the global window and names no trap for
another: the model makes the accesses wherever the base lies (assumption 53). -/
def State.zHead (s : State) (w : Wave) (base : DWord) (c : Nat) : Run ZHead :=
  if base.toNat % 8 ≠ 0 then trapAt .align 0 base
  else
    match s.oneAccess w (s.whoOf s.cur w) .read false false 32 base 8 with
    | .error e => .error e
    | .ok l =>
      let bs := s.readOne w l
      let h : ZHead := { count := leNat (bs.take 2), nz := leNat ((bs.drop 2).take 2), cap := leNat (bs.drop 4) }
      if 32 * c < h.count then .ok h else trapAt .illegalOperand 0 base

/-- Bytes of MASK read for chunk `c`: all bytes up to and with the chunk's own. -/
def State.zMask (s : State) (w : Wave) (base : DWord) (n : Nat) : Run Nat :=
  match s.oneAccess w (s.whoOf s.cur w) .read false false 32 (base + 8) n with
  | .error e => .error e
  | .ok l => .ok (leNat (s.readOne w l))

/-- One bits of the low `n` bits. -/
def bitsBelow (m n : Nat) : Nat := ((List.range n).filter fun i => decide (m / 2 ^ i % 2 = 1)).length

/-- The element of R160 at each active lane: its value, and the access that reads it. -/
def State.zValues (s : State) (w : Wave) (base : DWord) (h : ZHead) (c m : Nat) : Run (List (Nat × Nat)) :=
  let at_ (e : Nat) : DWord := base + BitVec.ofNat 64 (8 + maskBytes h.count + 2 * bitsBelow m e)
  let lanes := (lanesOf (activeMask w)).filter fun i => decide (32 * c + i < h.count) && decide (m / 2 ^ (32 * c + i) % 2 = 1)
  let who := s.whoOf s.cur w
  match s.admitLanes w .read false (lanes.map fun i =>
      { lane := i, va := at_ (32 * c + i), spans := s.check who .read false (at_ (32 * c + i)) 2 }) with
  | .error e => .error e
  | .ok l => .ok (l.map fun a => (a.lane, leNat (s.laneBytes w a)))

/-- LDZ (R158, R160, R459). -/
def ldzBody (d : Reg) (a : Pair) (b : Reg) (s : State) (w : Wave) : Run (State × Wave) :=
  let base := pairLane w.regs a w.leadLane
  let c := (lane w.regs b w.leadLane).toNat
  if wmET w.wm ≠ .bf16 then trapE .illegalType
  else if w.exec = 0 then .ok (s, w)
  else
    let s := s.orderLoad (s.whoOf s.cur w) w.wm [s.oneLane (s.whoOf s.cur w) .read false 32 base 8]
    match s.zHead w base c with
    | .error e => .error e
    | .ok h =>
      match s.zMask w base (maskBytes (Nat.min h.count (32 * c + 32))) with
      | .error e => .error e
      | .ok m =>
        match s.zValues w base h c m with
        | .error e => .error e
        | .ok vals =>
          let size := 8 + maskBytes h.count + 2 * h.nz
          let act := activeMask w
          let f (i : Nat) : Word := BitVec.ofNat 32 ((Assoc.find vals i).getD 0)
          let zero := (List.range 32).all fun i => f i == 0
          if h.cap < size then trapAt .zcapOverrun 0 (BitVec.ofNat 64 size)
          else if act = 0 then .ok (s, w)
          else
            match w.commit (fun R => write32 R act d f (if zero then .u else .g)) (if zero ∧ act = fullMask then 1 else 0) act with
            | .error e => .error e
            | .ok w' =>
              let seen := (base, 8 + maskBytes (Nat.min h.count (32 * c + 32))) ::
                vals.map fun v => (base + BitVec.ofNat 64 (8 + maskBytes h.count + 2 * bitsBelow m (32 * c + v.1)), 2)
              .ok (s.countBytes (s.whoOf s.cur w) (8 + maskBytes (Nat.min h.count (32 * c + 32)) + 2 * vals.length) 0 0,
                s.watch s.cur w' true false seen)

/-- LDZ (R160). -/
def execLdz (d : Reg) (a : Pair) (b : Reg) (s : State) : Host.Outcome State Fault Refusal := issue (.ldz d a b) s (ldzBody d a b)

/-- The MASK bytes of chunk `c` after the store: each element's bit set or cleared. -/
def chunkMask (old : Nat) (count c : Nat) (x : Nat → Nat) : Nat :=
  (List.range 32).foldl (fun m i =>
    if 32 * c + i < count then
      let cleared := if m / 2 ^ i % 2 = 1 then m - 2 ^ i else m
      if x i = 0 then cleared else cleared + 2 ^ i
    else m) old

/-- STZ (R158, R159, R459): MASK, VALUES, then NZ by an atomic. Bits of MASK that belong to no element of the chunk stay. -/
def stzBody (d : Reg) (a : Pair) (b : Reg) (s : State) (w : Wave) : Run (State × Wave) :=
  let base := pairLane w.regs a w.leadLane
  let c := (lane w.regs b w.leadLane).toNat
  let who := s.whoOf s.cur w
  if wmET w.wm ≠ .bf16 then trapE .illegalType
  else if w.exec = 0 then .ok (s, w)
  else
    match s.zHead w base c with
    | .error e => .error e
    | .ok h =>
      let act := activeMask w
      let x (i : Nat) : Nat := if act.getLsbD i ∧ 32 * c + i < h.count then (lane w.regs d i).toNat % 65536 else 0
      let vals := ((List.range 32).map x).filter fun v => v ≠ 0
      let need := 8 + maskBytes h.count + 2 * (h.nz + vals.length)
      let maskAt := base + 8 + BitVec.ofNat 64 (4 * c)
      let len := maskBytes (Nat.min h.count (32 * c + 32)) - 4 * c
      let valAt := base + BitVec.ofNat 64 (8 + maskBytes h.count + 2 * h.nz)
      let bytes := vals.flatMap fun v => leBytes v 2
      let part := decide (h.count < 32 * c + 32) && decide (h.count % 8 ≠ 0)
      let stay := if part then [s.oneLane who .read false 32 (maskAt + BitVec.ofNat 64 (len - 1)) 1] else []
      let lm := [s.oneLane who .write false 32 maskAt len]
      let lv := if vals.isEmpty then [] else [s.oneLane who .write false 32 valAt (2 * vals.length)]
      let ln := [s.oneLane who .atomic true 32 (base + 2) 2]
      match s.admitLanes w .read false stay with
      | .error e => .error e
      | .ok stay =>
        match s.checkLanes .write false (lm ++ lv) with
        | .error e => .error e
        | .ok _ =>
          match s.checkLanes .atomic false ln with
          | .error e => .error e
          | .ok _ =>
            let mask := leBytes (chunkMask (leNat (s.readOne w stay) * 256 ^ (len - 1)) h.count c x) len
            if h.cap < need then trapAt .zcapOverrun 0 (BitVec.ofNat 64 need)
            else
              match (s.askLanes w (lm.map (fun y => { kind := .write, acc := y, data := mask })
                  ++ lv.map (fun y => { kind := .write, acc := y, data := bytes })
                  ++ ln.map fun y => { kind := .atomic, acc := y, data := leBytes vals.length 2, aop := { op := 0, ty := 2 } })).releasing
                    (releaseScope w.wm (lm ++ lv)) with
              | .error e => .error e
              | .ok _ =>
                let s := s.orderStore who w.wm (lm ++ lv)
                let s := s.storeLanes who (isSc w.wm) lm fun _ => mask
                let s := s.storeLanes who (isSc w.wm) lv fun _ => bytes
                let s := s.performOverlap who.uid fun k =>
                  (lm ++ lv ++ ln).any fun y => y.ok.any fun z => decide (z.key ≤ k) && decide (k < z.key + z.len)
                let s := s.engineStore who.ctxKey (ln.flatMap fun y => spanCells y.ok (leBytes (h.nz + vals.length) 2))
                let w := s.watch s.cur w true false [(base, 8)]
                .ok (s.countBytes who 8 (len + bytes.length + 2) 0,
                  s.watch s.cur w false true ([(base + 2, 2), (maskAt, len)] ++ if vals.isEmpty then [] else [(valAt, bytes.length)]))

/-- STZ (R159). -/
def execStz (d : Reg) (a : Pair) (b : Reg) (s : State) : Host.Outcome State Fault Refusal := issue (.stz d a b) s (stzBody d a b)

/-! ### Atomics (R161, R162) -/

/-- Types of `AADD`, `AMIN`, `AMAX`, `AXCHG` and `ACAS`. -/
def setAtomic (t : ETy) : Bool := setInt32 t || t == .n64 || t == .s64 || t == .f32
/-- Types of the bitwise atomics. -/
def setAtomicBits (t : ETy) : Bool := setInt32 t || t == .n64 || t == .s64

/-- f32 `AADD`: RNE whatever `WM.RM` (R161); integers fit by R87. -/
def atomicAdd (t : ETy) (sat : Bool) (m x : DWord) : DWord :=
  if t = .f32 then BitVec.ofNat 64 (t.fmt.round 0 0 (sumF 0 [t.fmt.decode m.toNat, t.fmt.decode x.toNat]))
  else t.fit sat (t.value m + t.value x)

/-- One lane of an atomic: reads the memory as the earlier lanes left it, then stores (R161). In partner memory the partner
card has done so, and its answer is the value before. -/
def State.atomicLane (s : State) (ctx : Nat) (t : ETy) (new : DWord → DWord) (a : LaneAccess) : State × DWord :=
  let m := BitVec.ofNat 64 (leNat (s.homeBytes a.ok))
  (s.engineStore ctx (spanCells a.ok (leBytes (new m).toNat (accessSize t))), m)

/-- The value that an atomic of R161 stores where memory holds `m`, the operand is `x` and vd held `e`; `op` counts the
instructions from `AADD` (0) to `ACAS` (7). -/
def atomicOf (op : BitVec 3) (t : ETy) (sat : Bool) (m x e : DWord) : DWord :=
  match op.toNat with
  | 0 => atomicAdd t sat m x
  | 1 => extreme false t m x
  | 2 => extreme true t m x
  | 3 => m &&& x
  | 4 => m ||| x
  | 5 => m ^^^ x
  | 6 => x
  | _ => if t.pattern m = t.pattern e then x else m

/-- Its types. -/
def atomicTypes (op : BitVec 3) : ETy → Bool := if 3 ≤ op.toNat ∧ op.toNat ≤ 5 then setAtomicBits else setAtomic

/-- A lane of an atomic as the partner card gets it: the operand, and for `ACAS` the value to compare with. -/
def Wave.atomicSent (w : Wave) (op : BitVec 3) (t : ETy) (d b : Reg) (y : LaneAccess) : Sent :=
  let bytes (r : Reg) : List Byte := leBytes (laneT w.regs t r y.lane).toNat (accessSize t)
  { kind := .atomic, acc := y, aop := { op := op, ty := BitVec.ofNat 4 t.code, sat := wmSAT w.wm },
    data := bytes b ++ if op = 7 then bytes d else [] }

/-- An atomic (R161, R162): the budget check comes before any lane acts. It acts once for each active lane whatever the shapes of
its operands: R161 says so, and the listing of R228 and R229, which adds 1 once, differs (assumption 54). -/
def atomicBody (op : BitVec 3) (d : Reg) (a : Pair) (b : Reg) (s : State) (w : Wave) : Run (State × Wave) :=
  let t := wmET w.wm
  match accept (atomicTypes op) t [d, b] with
  | .error e => .error e
  | .ok _ =>
    let act := activeMask w
    let who := s.whoOf s.cur w
    let n := accessSize t
    let x (i : Nat) : DWord := laneT w.regs t b i
    let old (i : Nat) : DWord := laneT w.regs t d i
    let l := s.laneAccesses who .atomic true act (pairLane w.regs a) n
    match s.checkLanes .atomic false l with
    | .error e => .error e
    | .ok _ =>
      if act = 0 then .ok (s, w)
      else match w.put act t d (fun _ => 0) .g with
        | .error e => .error e
        | .ok _ =>
          match (s.askLanes w (l.map (w.atomicSent op t d b))).releasing (releaseScope w.wm l) with
          | .error e => .error e
          | .ok l =>
            let s0 := ((s.orderStore who w.wm l).orderLoad who w.wm l).beforeAtomic who.uid (l.flatMap LaneAccess.ok)
            let r := l.foldl (fun (acc : State × List (Nat × DWord)) y =>
              let z := acc.1.atomicLane who.ctxKey t (fun m => atomicOf op t (wmSAT w.wm) m (x y.lane) (old y.lane)) y
              (z.1, acc.2 ++ [(y.lane, z.2)])) (s0, [])
            match w.put act t d (fun i => (Assoc.find r.2 i).getD 0) .g with
            | .error e => .error e
            | .ok w' =>
              let s' := r.1.countBytes who (l.length * n) (l.length * n) 0
              .ok (s', s'.watch s.cur w' true true (lanesWatched l n))

/-- AADD (R161). -/
def execAadd (d : Reg) (a : Pair) (b : Reg) (s : State) : Host.Outcome State Fault Refusal :=
  issue (.aadd d a b) s (atomicBody 0 d a b)
/-- AMIN (R161). -/
def execAmin (d : Reg) (a : Pair) (b : Reg) (s : State) : Host.Outcome State Fault Refusal :=
  issue (.amin d a b) s (atomicBody 1 d a b)
/-- AMAX (R161). -/
def execAmax (d : Reg) (a : Pair) (b : Reg) (s : State) : Host.Outcome State Fault Refusal :=
  issue (.amax d a b) s (atomicBody 2 d a b)
/-- AAND (R161). -/
def execAand (d : Reg) (a : Pair) (b : Reg) (s : State) : Host.Outcome State Fault Refusal :=
  issue (.aand d a b) s (atomicBody 3 d a b)
/-- AOR (R161). -/
def execAor (d : Reg) (a : Pair) (b : Reg) (s : State) : Host.Outcome State Fault Refusal :=
  issue (.aor d a b) s (atomicBody 4 d a b)
/-- AXOR (R161). -/
def execAxor (d : Reg) (a : Pair) (b : Reg) (s : State) : Host.Outcome State Fault Refusal :=
  issue (.axor d a b) s (atomicBody 5 d a b)
/-- AXCHG (R161). -/
def execAxchg (d : Reg) (a : Pair) (b : Reg) (s : State) : Host.Outcome State Fault Refusal :=
  issue (.axchg d a b) s (atomicBody 6 d a b)
/-- ACAS (R161): bit patterns are compared. -/
def execAcas (d : Reg) (a : Pair) (b : Reg) (s : State) : Host.Outcome State Fault Refusal :=
  issue (.acas d a b) s (atomicBody 7 d a b)

end Sys2Proof.Machine
end

