-- ==== Sys2Proof/Machine/Sync.lean ====
section
/-! DEFINITION. Fences (R163, R187, R191), publication (R164, R301) and completion objects (R165 to R167). -/

namespace Sys2Proof.Machine

/-! ### The coverage units, as fences see them (R393) -/

/-- The coverage unit of a die. -/
def State.cover (s : State) (die : Nat) : CoverageUnit := (s.coverage[die]?).getD {}
/-- Replace a die's coverage unit. -/
def State.setCover (s : State) (die : Nat) (u : CoverageUnit) : State := { s with coverage := s.coverage.setIfInBounds die u }

/-- A stream has triangles that are not committed (R391, R393). -/
def State.streamOwed (s : State) (stream : Nat) : Bool :=
  s.coverage.toList.any fun u => (u.input ++ u.binned).any fun t => t.stream == stream

/-- Where the unit writes a sample that it holds for a memory key: in a publish window the backing that is shadow now (R197,
R302). -/
def State.sampleKey (s : State) (key : Nat) (x : Sample) : Nat :=
  if x.pub then
    let off := x.va.toNat % x.page
    let frame := (key - off) / (2 * x.page) * (2 * x.page)
    frame + off + (if s.sel.contains frame then 0 else x.page)
  else key

/-- Write one sample to memory, or send it to the partner card where its page lies there (R423). -/
def State.writeSample (s : State) (die : Nat) (x : Nat × Sample) : State :=
  let key := s.sampleKey x.1 x.2
  let data := leBytes x.2.value.toNat 8
  if s.paKind key = .partner then
    s.askGroup { core := die * 112, pav := x.2.pav, ctx := x.2.ctx, block := s.fresh, uid := s.fresh } (.coverage die)
      [{ kind := .write, tag := 0, pa := key, len := 8, va := x.2.va, page := x.2.page, data := data }]
  else
    let span : Span := { key := key, len := 8, ord := x.2.ord, cache := 0, pub := x.2.pub, por := false, partner := false,
                         scratch := false, va := x.2.va.toNat }
    s.engineStore (ctxKey x.2.pav x.2.ctx) [(span, cellsFrom key data)]

/-- Samples on their way to the partner card (R192, R393). -/
def State.samplesSent (s : State) : Bool :=
  s.fabric.any fun r => decide (r.ask.kind = .write) && match r.unit with
    | .coverage _ => true
    | _ => false

/-- Write the samples of the tile store that `f` selects to memory (R392, R393). -/
def State.spillSamples (s : State) (die : Nat) (f : Sample → Bool) : State :=
  let u := s.cover die
  let out := u.store.filter fun x => f x.2
  (out.foldl (fun s x => s.writeSample die x) s).setCover die { u with store := dropIf (fun x => f x.2) u.store }

/-! ### FENCE (R163) -/

/-- Engine accesses that a wave started and that have not been performed (R163 bit [6]). -/
def State.enginesOwed (s : State) (uid : Nat) : Bool :=
  (s.cores.any fun c => (c.2.chans.toList.any fun l => l.any fun t => t.uid == uid) || (c.2.inbox.any fun m => m.uid == uid))
    || (s.colls.any fun m => m.uid == uid)
    || (s.units.any fun u => u.2.ops.any fun o => o.uid == uid && match o.kind with | .drain _ _ _ _ _ _ => true | _ => false)
    || s.streamOwed uid

/-- Perform every DR store of a die at both replicas, oldest first (R191). -/
def State.drainReplica (s : State) (die : Nat) : State :=
  (s.drQueue.filter fun x => x.1 == die).foldl State.propagate { s with drQueue := dropIf (fun x => x.1 == die) s.drQueue }

/-- FENCE (R163, R187, R188, R191); with bit [6] and a scope of device or wider it waits for sampler requests (R380); with
bit [6], order sc and device scope it writes the coverage units' commits to memory, on either card (R192, R393). -/
def execFence (order scope : BitVec 3) (engines unordered : Bool) (s : State) : Host.Outcome State Fault Refusal :=
  issue (.fence order scope engines unordered) s fun s w =>
    if order = 0 then .ok (s, w)
    else if engines ∧ s.enginesOwed w.uid then .error (.wait .engines)
    else if engines ∧ 4 ≤ scope.toNat ∧ s.samplersOwed s.cur then .error (.wait .sampling)
    else
      let who := s.whoOf s.cur w
      let s := if order = 4 ∧ scope ≠ 0 then s.release w.uid unordered
        else if 2 ≤ order.toNat then s.releaseAt who scope unordered else s
      let s := if order ≠ 2 then s.acquireAt who scope else s
      let wide := decide (order = 4) && decide (4 ≤ scope.toNat)
      let s := if wide then s.drainReplica (dieOf (coreOf s.cur)) else s
      let s := if wide && engines then (s.spillSamples 0 fun _ => true).spillSamples 1 fun _ => true else s
      if wide && engines && s.samplesSent then .ok (s, { w with pc := w.pc - 4, wait := .engines }) else .ok (s, w)

/-! ### PUBLISH (R164) -/

/-- Exchange the backings of a publish window (R301). -/
def State.swapWindow (s : State) (frame : Nat) : State :=
  { s with sel := if s.sel.contains frame then dropIf (fun f => f == frame) s.sel else s.sel ++ [frame] }

/-- PUBLISH (R164, R459): a device-scope release, then the swap. -/
def publishBody (a : Pair) (s : State) (w : Wave) : Run (State × Wave) :=
  let va := pairLane w.regs a w.leadLane
  let who := s.whoOf s.cur w
  if w.exec = 0 then .ok (s, w)
  else if globalEnd ≤ va.toNat then trapAt .accessViolation 0 va
  else
    match s.translate who.core who.pav who.ctx va.toNat with
    | .bad => trapAt .accessViolation 0 va
    | .fault => .error (.pageFault va .write 0 false)
    | .ok p => if p.pub then .ok ((s.release w.uid false).swapWindow p.frame, w) else trapAt .accessViolation 0 va

/-- PUBLISH (R164). -/
def execPublish (a : Pair) (s : State) : Host.Outcome State Fault Refusal := issue (.publish a) s (publishBody a)

/-! ### Completion objects (R165, R166) -/

/-- Where an object lies: the leader's allocation, bounds before alignment (R152, R165, R167). -/
def State.objectKey (s : State) (b : Nat) (off : Nat) : Run Nat :=
  match s.block b with
  | none => trapAt .scratchBounds 0 (BitVec.ofNat 64 off)
  | some x =>
    match x.halves with
    | [] => trapAt .scratchBounds 0 (BitVec.ofNat 64 off)
    | h :: t =>
      let lead := t.foldl (fun best y => if y.core < best.core then y else best) h
      if x.scratch < off + 16 then trapAt .scratchBounds 0 (BitVec.ofNat 64 off)
      else if off % 16 ≠ 0 then trapAt .align 0 (BitVec.ofNat 64 off)
      else .ok (scratchKey lead.core (lead.base + off))

/-- The fields of a completion object. -/
structure CompObj where
  phase : Word
  expected : Nat
  pendarr : Nat
  pendtx : Word
  carry : Nat
  deriving DecidableEq, Repr

/-- Read an object. -/
def State.object (s : State) (key : Nat) : CompObj :=
  { phase := BitVec.ofNat 32 (s.devRead key 4), expected := s.devRead (key + 4) 2, pendarr := s.devRead (key + 6) 2,
    pendtx := BitVec.ofNat 32 (s.devRead (key + 8) 4), carry := s.devRead (key + 12) 2 }

/-- Write an object's fields; bytes 14 and 15 stay. -/
def State.putObject (s : State) (key : Nat) (o : CompObj) : State :=
  ((((s.devWrite key 4 o.phase.toNat).devWrite (key + 4) 2 o.expected).devWrite (key + 6) 2 o.pendarr).devWrite (key + 8) 4
    o.pendtx.toNat).devWrite (key + 12) 2 o.carry

/-- The evaluation of R166. -/
def CompObj.evaluate (o : CompObj) : CompObj :=
  if o.pendarr = 0 ∧ o.pendtx = 0 then { o with phase := o.phase + 1, pendarr := o.expected - o.carry, carry := 0 } else o

/-- The arrival of R166: its result and the object after it, none where CARRY overflows. -/
def CompObj.arrive (o : CompObj) (t : Word) : Option (Word × CompObj) :=
  let o' := { o with pendtx := o.pendtx + t }
  if 0 < o.pendarr then some (o.phase, { o' with pendarr := o.pendarr - 1 }.evaluate)
  else if o.carry = 65535 then none
  else some (o.phase + 1, { o' with carry := o.carry + 1 }.evaluate)

/-- Waves of a block that wait in the way `r` execute their instruction again. -/
def State.wake (s : State) (b : Nat) (r : Wait) : State :=
  { s with waves := s.waves.map fun (x : Nat × Wave) =>
      if x.2.block = b ∧ x.2.wait = r then (x.1, { x.2 with wait := .none }) else x }

/-- A transaction of a retiring copy (R166, R294). -/
def State.retireTx (s : State) (b off : Nat) : State :=
  match s.objectKey b off with
  | .error _ => s
  | .ok key =>
    let o := s.object key
    (s.putObject key { o with pendtx := o.pendtx - 1 }.evaluate).wake b .phase

/-- `ARRIVE` and `ARRIVETX` (R166, R167, R459). -/
def arrive (i : Instr) (d a : Reg) (tx : Wave → Word) (s : State) : Host.Outcome State Fault Refusal :=
  issue i s fun s w =>
    if w.exec = 0 then .ok (s, w)
    else
      match s.objectKey w.block (lane w.regs a w.leadLane).toNat with
      | .error e => .error e
      | .ok key =>
        match (s.object key).arrive (tx w) with
        | none => trapE .illegalOperand
        | some (x, o) =>
          match w.put32 w.exec d (fun _ => x) .u with
          | .error e => .error e
          | .ok w' => .ok (((s.release w.uid false).putObject key o).wake w.block .phase, w')

/-- ARRIVE (R167). -/
def execArrive (d a : Reg) (s : State) : Host.Outcome State Fault Refusal := arrive (.arrive d a) d a (fun _ => 0) s
/-- ARRIVETX (R167). -/
def execArrivetx (d a b : Reg) (s : State) : Host.Outcome State Fault Refusal :=
  arrive (.arrivetx d a b) d a (fun w => lane w.regs b w.leadLane) s

/-- WAITPH (R167, R186, R459): its completion acquires at block scope, or at pair scope in a paired block. -/
def execWaitph (a b : Reg) (s : State) : Host.Outcome State Fault Refusal :=
  issue (.waitph a b) s fun s w =>
    match s.objectKey w.block (lane w.regs a w.leadLane).toNat with
    | .error e => .error e
    | .ok key =>
      if (s.object key).phase = lane w.regs b w.leadLane then .error (.wait .phase)
      else .ok (s.acquireAt (s.whoOf s.cur w) 1, w)

end Sys2Proof.Machine
end

