-- ==== Sys2Proof/Machine/Engine.lean ====
section
/-! DEFINITION. What the engines share: engine accesses and how they stop (R194, R294, R460), and the record cache
(R328, R330). -/

namespace Sys2Proof.Machine

/-! ### Engine accesses -/

/-- One access of an engine: the row or piece it is for, its kind and address, its spans with the answers that have come, and
what it writes. -/
structure EngineAccess where
  tag : Nat
  kind : AccessKind
  va : DWord
  spans : List Span
  data : List Byte := []
  /-- Bytes of `data` that are poisoned (R294). -/
  bad : List Nat := []
  deriving DecidableEq, Repr

/-- An engine access translated, or what stops it: a fault the driver may resolve, a failure that terminates the context, or a halt of
the other core whose scratchpad it reaches (R438). -/
def State.engineAccess (s : State) (who : Who) (answers : List Answer) (tag : Nat) (kind : AccessKind) (shadow : Bool) (va n : Nat)
    (data : List Byte) (bad : List Nat) : Run EngineAccess :=
  match s.resolve who kind shadow va n with
  | .error (.fault a) => .error (.pageFault (BitVec.ofNat 64 a) kind 0 false)
  | .error f => trapAt f.cause 0 (BitVec.ofNat 64 va)
  | .ok l =>
    if l.any (s.peerHalted who.core) then .error (.wait .engines)
    else .ok { tag := tag, kind := kind, va := BitVec.ofNat 64 va, spans := withReplies answers kind tag l, data := data, bad := bad }

/-- Translated accesses, with the partner card's answers (R426): what it has not answered leaves as one group, and a fault
response ends the operation. -/
def engineAnswers (l : List EngineAccess) : Run Unit :=
  let asks := l.flatMap fun x => spanAsks x.kind x.tag {} x.spans x.data x.bad
  if !asks.isEmpty then .error (.fabric asks)
  else match l.find? fun x => x.spans.any fun y => replyFault y.reply with
    | some x => trapAt .fabricFault 0 x.va
    | none => .ok ()

/-- One engine access, translated and answered. -/
def State.engineSpans (s : State) (who : Who) (answers : List Answer) (tag : Nat) (kind : AccessKind) (shadow : Bool) (va n : Nat)
    (data : List Byte) : Run (List Span) :=
  match s.engineAccess who answers tag kind shadow va n data [] with
  | .error e => .error e
  | .ok x => match engineAnswers [x] with
    | .error e => .error e
    | .ok _ => .ok x.spans

/-- An engine operation that cannot go on: it waits for the driver or for the partner card, marked with the number of what
it waits for, or its context is terminated (R294, R430, R460). -/
def State.engineStop (s : State) (who : Who) (unit : FaultUnit) (mark : State → Option Nat → Option Nat → State) : Stop → State
  | .trap t => s.terminate who.pav who.ctx t.cause.code 0
  | .pageFault va kind _ _ =>
    if s.faultRing who.pav then mark (s.pendFault who.pav who.ctx who.core va kind unit 0) (some s.fresh) none
    else s.terminate who.pav who.ctx Cause.accessViolation.code 0
  | .fabric asks _ => mark (s.askGroup who unit asks) none (some s.fresh)
  | .wait _ => s

/-! ### Shape records (R328) and their cache (R330) -/

/-- BASE. -/
def shBase (r : Line) : Nat := lineField r 0 8
/-- ET, as the byte holds it. -/
def shET (r : Line) : Nat := lineField r 8 1
/-- The element type. -/
def shType (r : Line) : ETy := ETy.ofCode (BitVec.ofNat 4 (shET r))
/-- FLAGS. -/
def shFlags (r : Line) : Nat := lineField r 9 1
/-- DIMS. -/
def shDims (r : Line) : Nat := lineField r 10 1
/-- LAYOUT. -/
def shLayout (r : Line) : Nat := lineField r 11 1
/-- EXTENT0 and EXTENT1. -/
def shExtent (r : Line) (k : Nat) : Nat := lineField r (12 + 4 * k) 4
/-- STRIDE0. -/
def shStride (r : Line) : Nat := lineField r 28 4
/-- SCALEBASE. -/
def shScale (r : Line) : Nat := lineField r 40 8
/-- CBSLOT. -/
def shCodebook (r : Line) : Nat := lineField r 48 4
/-- SEED. -/
def shSeed (r : Line) : Nat := lineField r 52 4
/-- N. -/
def shKept (r : Line) : Nat := lineField r 56 1
/-- M. -/
def shGroup (r : Line) : Nat := lineField r 57 1
/-- FLAGS [0], [1], [2]. -/
def shScaled (r : Line) : Bool := decide (shFlags r % 2 = 1)
/-- Pattern-sparse. -/
def shSparse (r : Line) : Bool := decide (shFlags r / 2 % 2 = 1)
/-- Publish. -/
def shPublish (r : Line) : Bool := decide (shFlags r / 4 % 2 = 1)
/-- Bits of a row. -/
def shRowBits (r : Line) : Nat := shExtent r 1 * (shType r).width

/-- Address of record `i` (R27). -/
def State.recordAddr (s : State) (who : Who) (i : Nat) : DWord :=
  s.ctxBase who.block who.pav who.ctx + BitVec.ofNat 64 (64 * i)

/-- A record that the instruction at the issue point has read, kept with the answers to its accesses, under the kind of a table
read, until it retires or traps (R330, R363). -/
def heldRecord (i : Nat) (r : Line) : Answer :=
  { ask := { kind := .tableRead, tag := i, pa := 0, len := 64, va := 0 }, reply := .data (cellsFrom 0 (leBytes r.toNat 64)) [] }

/-- The record of an index that the instruction at the issue point has read. -/
def Wave.held (w : Wave) (i : Nat) : Option Line :=
  (w.answers.find? fun a => a.ask.kind == .tableRead && a.ask.tag == i).map fun a => match a.reply with
    | .data cells _ => lineOf (cells.map fun c => c.2)
    | _ => 0

/-- The bytes of a record that the cache misses: what the instruction has read already, else a relaxed load of the wave. -/
def State.missRecord (s : State) (w : Wave) (who : Who) (i : Nat) : Run Line :=
  match w.held i with
  | some r => .ok r
  | none => (s.oneAccess w who .read false false 32 (s.recordAddr who i) 64).map fun l => lineOf (s.readOne w l)

/-- Use a record through the block's cache (R330): the state with the entry filled, the record's address and bytes. -/
def State.useRecord (s : State) (w : Wave) (who : Who) (i : Nat) : Run (State × DWord × Line) :=
  let va := s.recordAddr who i
  let cached := ((s.block who.block).map Block.records).getD []
  match Assoc.find cached i with
  | some r => .ok (s, va, r)
  | none =>
    match s.missRecord w who i with
    | .error e => .error e
    | .ok r =>
      let kept := if cached.length < 64 then cached else []
      .ok (s.onBlock who.block fun b => { b with records := kept ++ [(i, r)] }, va, r)

/-- The records of some indices that an instruction reads in their order, up to the first that stops it. -/
def State.recordsRead (s : State) (w : Wave) (who : Who) : List Nat → List Answer
  | [] => []
  | i :: t =>
    match s.useRecord w who i with
    | .ok (s', _, r) => heldRecord i r :: s'.recordsRead w who t
    | .error _ => []

/-- The wave that issues keeps the records that its instruction reads, whatever it then waits for (R330); an instruction that traps
leaves the cache as it was (R363). -/
def State.withRecords (s : State) (ids : Wave → List Nat) : State :=
  match s.wave s.cur with
  | none => s
  | some w =>
    let new := s.recordsRead w (s.whoOf s.cur w) ((ids w).filter fun i => (w.held i).isNone)
    if new.isEmpty then s else s.setWave s.cur { w with answers := w.answers ++ new }

/-- Write engine data; the lines that poisoned bytes reach are poisoned (R294). -/
def State.engineWrite (s : State) (ctx : Nat) (x : EngineAccess) : State :=
  (s.engineStore ctx (spanCells x.spans x.data)).poisonAt x.spans x.bad

/-- The publish test of R328: the page of an address of the global window is a publish window. A page the driver may still
resolve faults as a store does. -/
def State.publishTest (s : State) (who : Who) (va : DWord) (lanes : Word) : Run Bool :=
  if globalEnd ≤ va.toNat then .ok false
  else match s.translate who.core who.pav who.ctx va.toNat with
    | .ok p => .ok p.pub
    | .bad => .ok false
    | .fault => .error (.pageFault va .write lanes false)

/-- Must-be-zero fields, ET and LAYOUT of a record, and DIMS of a matrix or copy use (R328, R329). -/
def shPlain (r : Line) : Bool :=
  decide (shFlags r < 8) && decide (lineField r 58 6 = 0) && decide (shET r ≤ 15) && decide (shDims r = 2)
    && decide (shLayout r = 0) && decide (shBase r % 16 = 0) && decide (shStride r % 16 = 0)

/-- Checks 1 to 3 of R152 on a run of bytes; the failing byte is the first where it fails alone, else the last. -/
def State.runCheck (s : State) (who : Who) (va : DWord) (n : Nat) : Run Unit :=
  let last := va + BitVec.ofNat 64 (n - 1)
  match windowOf va.toNat with
  | none => trapAt .accessViolation 0 va
  | some win =>
    if win.limit < va.toNat + n then trapAt .windowCross 0 last
    else match win with
      | .global => .ok ()
      | _ =>
        match s.scratchTarget who win va.toNat with
        | none => trapAt .scratchBounds 0 va
        | some (_, _, size, o) =>
          if size ≤ o then trapAt .scratchBounds 0 va
          else if size < o + n then trapAt .scratchBounds 0 last
          else .ok ()

end Sys2Proof.Machine
end

