-- ==== Sys2Proof/Machine/Copy.lean ====
section
/-! DEFINITION. Copy channels (R284 to R296): CPYSET, CPYGO, WAITID and the steps of a transfer. -/

namespace Sys2Proof.Machine

/-! ### Shadow registers (R288, R289) -/

/-- Shadow register `k` of channel `ch`. -/
def Wave.shadowReg (w : Wave) (ch k : Nat) : DWord := (w.shadow[8 * ch + k]?).getD 0

/-- CPYSET (R289, R459). -/
def execCpyset (a : Pair) (reg : BitVec 3) (ch : BitVec 2) (s : State) : Host.Outcome State Fault Refusal :=
  issueOwn (.cpyset a reg ch) s fun w =>
    if w.exec = 0 then .ok w
    else .ok { w with shadow := w.shadow.setIfInBounds (8 * ch.toNat + reg.toNat) (pairLane w.regs a w.leadLane) }

/-! ### The shape of a transfer (R288) -/

/-- Register `k` of a snapshot. -/
def Transfer.reg (t : Transfer) (k : Nat) : DWord := (t.regs[k]?).getD 0
/-- KIND. -/
def Transfer.kind (t : Transfer) : Nat := ((t.reg 7).extractLsb' 0 2).toNat
/-- CO. -/
def Transfer.co (t : Transfer) : Bool := (t.reg 7).getLsbD 2
/-- FILL. -/
def Transfer.fill (t : Transfer) : Bool := (t.reg 7).getLsbD 3
/-- FIRSTROW of kinds 2 and 3, row bytes or byte count else. -/
def Transfer.extLo (t : Transfer) : Nat := ((t.reg 3).extractLsb' 0 32).toNat
/-- Row count. -/
def Transfer.extHi (t : Transfer) : Nat := ((t.reg 3).extractLsb' 32 32).toNat
/-- Bytes of a row. -/
def Transfer.rowBytes (t : Transfer) : Nat :=
  if t.kind ≤ 1 then t.extLo else t.ext1.toNat * (ETy.ofCode (BitVec.ofNat 4 t.ret.toNat)).width / 8
/-- Rows of the transfer order; kind 3 leaves out the rows the record does not have. -/
def Transfer.rows (t : Transfer) : Nat :=
  match t.kind with
  | 0 => 1
  | 3 => Nat.min t.extHi (t.ext0.toNat - t.extLo)
  | _ => t.extHi
/-- Bytes of the transfer. -/
def Transfer.total (t : Transfer) : Nat := t.rows * t.rowBytes
/-- Record row `r`. -/
def Transfer.recordRow (t : Transfer) (r : Nat) : DWord := t.rbase + BitVec.ofNat 64 (r * t.rstride.toNat)
/-- Where row `k` is read: none where nothing is read. `FILL` reads no row, and check 3 of R291 covers none of the record's then
(DESIGN CHOICE, assumption 74). -/
def Transfer.source (t : Transfer) (k : Nat) : Option DWord :=
  if t.fill then none
  else if t.kind = 2 then (if t.extLo + k < t.ext0.toNat then some (t.recordRow (t.extLo + k)) else none)
  else some (t.reg 0 + BitVec.ofNat 64 k * t.reg 4)
/-- Where row `k` is written. -/
def Transfer.dest (t : Transfer) (k : Nat) : DWord :=
  if t.kind = 3 then t.recordRow (t.extLo + k) else t.reg 1 + BitVec.ofNat 64 k * t.reg 5

/-! ### Checks of R291 -/

/-- Check 1: must-be-zero bits. -/
def Transfer.zeroBits (t : Transfer) : Bool :=
  decide ((t.reg 2).extractLsb' 16 48 = 0) && decide ((t.reg 6).extractLsb' 32 32 = 0)
    && decide ((t.reg 7).extractLsb' 6 58 = 0) && (!t.fill || decide ((t.reg 0).extractLsb' 32 32 = 0))
    && (t.kind != 0 || decide ((t.reg 3).extractLsb' 32 32 = 0))

/-- Check 2 on a record, but for the publish test. -/
def copyRecordOk (r : Line) : Bool :=
  decide (shET r ≤ 15) && decide (shDims r = 2) && decide (shLayout r = 0) && decide (shBase r % 16 = 0)
    && decide (shStride r % 16 = 0) && decide (shRowBits r % 8 = 0) && decide (shRowBits r ≠ 0)
    && decide (shRowBits r / 8 ≤ shStride r)

/-- Check 3 from row `k` on, `n` rows left: the source, then the destination. -/
def State.copyRuns (s : State) (who : Who) (t : Transfer) : Nat → Nat → Run Unit
  | 0, _ => .ok ()
  | n + 1, k =>
    match (match t.source k with | some a => s.runCheck who a t.rowBytes | none => .ok ()) with
    | .error e => .error e
    | .ok _ =>
      match s.runCheck who (t.dest k) t.rowBytes with
      | .error e => .error e
      | .ok _ => s.copyRuns who t n (k + 1)

/-- Check 4: the completion object. -/
def State.copyObject (s : State) (who : Who) (t : Transfer) : Run Unit :=
  let off := (t.reg 6).toNat
  let size := ((s.block who.block).map Block.scratch).getD 0
  if !t.co then .ok ()
  else if off % 16 ≠ 0 then trapAt .align 0 (t.reg 6)
  else if size < off + 16 then trapAt .scratchBounds 0 (t.reg 6)
  else .ok ()

/-- The range-scoreboard entry of a transfer, as offsets in the core's scratchpad (R295). A destination whose first or last row lies
elsewhere needs none: the spec gives none for one that lies only partly in the scratchpad (DESIGN CHOICE, assumption 74). -/
def State.copyRange (s : State) (who : Who) (t : Transfer) : Option (Nat × Nat) :=
  let a := (t.dest 0).toNat
  let b := (t.dest (t.rows - 1)).toNat
  let place (va : Nat) : Option Nat :=
    match windowOf va with
    | some win => (s.scratchTarget who win va).bind fun x => if x.1 = who.core then some (x.2.1 + x.2.2.2) else none
    | none => none
  match place a, place b with
  | some x, some y => some (Nat.min x y, Nat.max x y + t.rowBytes - 1)
  | _, _ => none

/-- Entries held in a core's range scoreboard. -/
def CoreState.rangesHeld (c : CoreState) : Nat :=
  (c.chans.toList.map fun l => (l.filter fun t => t.range.isSome).length).sum

/-! ### Retirement (R286, R294) -/

/-- Advance DONE past the ids that have retired; `n` bounds the search. -/
def advanceDone (done : Word) (ids : List Word) : Nat → Word
  | 0 => done
  | n + 1 => if ids.contains done then advanceDone (done + 1) ids n else done

/-- Record that transfer `id` of a channel has retired (R286, R287). -/
def Half.retire (h : Half) (ch : Nat) (id : Word) : Half :=
  let retired := (ch, id) :: h.retired
  let ids := (retired.filter fun x => x.1 == ch).map fun x => x.2
  let done := advanceDone (h.done[ch]?.getD 1) ids (ids.length + 1)
  let next := h.next[ch]?.getD 1
  { h with done := h.done.setIfInBounds ch done,
           retired := retired.filter fun x => x.1 != ch || decide ((x.2 - done).toNat < (next - done).toNat) }

/-- Change a block's half on a core. -/
def Block.onHalf (b : Block) (core : Nat) (f : Half → Half) : Block :=
  { b with halves := b.halves.map fun h => if h.core = core then f h else h }

/-- Wake every wave that waits for a range of a core's scoreboard or for engine accesses: each looks again. -/
def State.wakeRanges (s : State) : State :=
  { s with waves := s.waves.map fun (x : Nat × Wave) =>
      if x.2.wait = .range ∨ x.2.wait = .engines then (x.1, { x.2 with wait := .none }) else x }

/-- A transfer retires: DONE, its scoreboard entry, its object, and the waves that wait (R286, R292, R294, R295). -/
def State.retireTransfer (s : State) (t : Transfer) (ch : Nat) : State :=
  let s := s.onBlock t.block fun b => b.onHalf t.core fun h => h.retire ch t.id
  let s := if t.co then s.retireTx t.block (t.reg 6).toNat else s
  (s.wake t.block .transfer).wakeRanges

/-! ### CPYGO (R290) -/

/-- A transfer of a channel's shadow set. -/
def Wave.copyOf (w : Wave) (ch : Nat) : Transfer :=
  { block := w.block, uid := w.uid, core := 0, id := 0,
    regs := #v[w.shadowReg ch 0, w.shadowReg ch 1, w.shadowReg ch 2, w.shadowReg ch 3,
               w.shadowReg ch 4, w.shadowReg ch 5, w.shadowReg ch 6, w.shadowReg ch 7] }

/-- The snapshot of a channel's shadow set, with the record of kinds 2 and 3 (check 2 of R291). -/
def State.snapshot (s : State) (w : Wave) (who : Who) (ch : Nat) : Run (State × Transfer) :=
  let t : Transfer := { w.copyOf ch with core := who.core }
  if !t.zeroBits then trapE .illegalOperand
  else if t.kind ≤ 1 then .ok (s, t)
  else
    match s.useRecord w who (t.reg 2).toNat with
    | .error e => .error e
    | .ok (s', va, r) =>
      if !copyRecordOk r then trapAt .shapeAlign 0 va
      else
        match (if t.kind = 3 ∧ shPublish r then s.publishTest who (BitVec.ofNat 64 (shBase r)) w.exec else .ok true) with
        | .error e => .error e
        | .ok pub =>
          if pub then
            .ok (s', { t with rbase := BitVec.ofNat 64 (shBase r), ext0 := BitVec.ofNat 32 (shExtent r 0),
                              ext1 := BitVec.ofNat 32 (shExtent r 1), rstride := BitVec.ofNat 32 (shStride r),
                              ret := BitVec.ofNat 8 (shET r), publish := shPublish r })
          else trapAt .shapeAlign 0 va

/-- All the checks of R291 on a snapshot. -/
def State.copyChecks (s : State) (who : Who) (t : Transfer) : Run Unit :=
  match (if t.total = 0 then .ok () else s.copyRuns who t t.rows 0) with
  | .error e => .error e
  | .ok _ => s.copyObject who t

/-- CPYGO (R287, R290, R291, R295). -/
def cpygoBody (d : Reg) (ch : BitVec 2) (s : State) (w : Wave) : Run (State × Wave) :=
  let who := s.whoOf s.cur w
  let c := ch.toNat
  if w.exec = 0 then .ok (s, w)
  else
    match s.snapshot w who c with
    | .error e => .error e
    | .ok (s, t) =>
      match s.copyChecks who t with
      | .error e => .error e
      | .ok _ =>
        let core := s.core who.core
        let queue := core.chans[c]?.getD []
        let range := if t.total = 0 then none else s.copyRange who t
        if 16 ≤ queue.length ∨ (range.isSome ∧ 16 ≤ core.rangesHeld) then .error (.wait (.copyRoom d ch))
        else
          let id := (((s.block who.block).bind fun b => b.half who.core).bind fun h => h.next[c]?).getD 1
          match w.put32 w.exec d (fun _ => id) .u with
          | .error e => .error e
          | .ok w' =>
            let t := { t with id := id, range := range }
            let s := (s.release who.uid true).onBlock who.block fun b =>
              b.onHalf who.core fun h => { h with next := h.next.setIfInBounds c (id + 1) }
            if t.total = 0 then .ok (s.retireTransfer t c, w')
            else .ok (s.setCore who.core { s.core who.core with chans := core.chans.setIfInBounds c (queue ++ [t]) }, w')

/-- The record that `CPYGO` uses: that of kinds 2 and 3, once check 1 of R291 holds. -/
def copyRecords (ch : BitVec 2) (w : Wave) : List Nat :=
  let t := w.copyOf ch.toNat
  if w.exec = 0 ∨ !t.zeroBits ∨ t.kind ≤ 1 then [] else [(t.reg 2).toNat]

/-- CPYGO (R290). -/
def execCpygo (d : Reg) (ch : BitVec 2) (s : State) : Host.Outcome State Fault Refusal :=
  issue (.cpygo d ch) (s.withRecords (copyRecords ch)) (cpygoBody d ch)

/-- CPYGO_START (R287, R295): a waiting CPYGO finds room. -/
def execCpygoStart (wave : Nat) (s : State) : Host.Outcome State Fault Refusal :=
  s.rerun wave fun r => match r with
    | .copyRoom d ch => some (execCpygo d ch)
    | _ => none

/-- WAITID (R292, R459). -/
def execWaitid (a : Reg) (ch : BitVec 2) (s : State) : Host.Outcome State Fault Refusal :=
  issue (.waitid a ch) s fun s w =>
    let t := lane w.regs a w.leadLane
    let half := (s.block w.block).bind fun b => b.half (coreOf s.cur)
    let done := (half.bind fun h => h.done[ch.toNat]?).getD 1
    let next := (half.bind fun h => h.next[ch.toNat]?).getD 1
    if 0 < (done - t).toNat ∧ (done - t).toNat ≤ 2 ^ 31 then .ok (s, w)
    else if (t - done).toNat < (next - done).toNat then .error (.wait .transfer)
    else trapE .illegalOperand

/-! ### Chunks (R293, R294) -/

/-- A piece of a row within a chunk: row, first byte, length. -/
def pieces (rowBytes : Nat) : Nat → Nat → Nat → List (Nat × Nat × Nat)
  | 0, _, _ => []
  | fuel + 1, o, n =>
    if n = 0 ∨ rowBytes = 0 then []
    else
      let len := Nat.min n (rowBytes - o % rowBytes)
      (o / rowBytes, o % rowBytes, len) :: pieces rowBytes fuel (o + len) (n - len)

/-- The access that reads piece `i` of a chunk: none where the piece is filled. -/
def State.pieceRead (s : State) (who : Who) (t : Transfer) (p : Nat × Nat × Nat) (i : Nat) : Run (Option EngineAccess) :=
  match t.source p.1 with
  | none => .ok none
  | some a => (s.engineAccess who t.answers i .read false (a + BitVec.ofNat 64 p.2.1).toNat p.2.2 [] []).map some

/-- The bytes of a piece that is filled. Under `FILL` with kind 2 a row that the record does not have is zeros, not the pattern (R288
says both; DESIGN CHOICE, assumption 74). -/
def Transfer.filled (t : Transfer) (p : Nat × Nat × Nat) : List Byte :=
  (List.range p.2.2).map fun i =>
    if t.fill ∧ (t.kind ≠ 2 ∨ t.extLo + p.1 < t.ext0.toNat) then (t.reg 0).extractLsb' (8 * ((p.2.1 + i) % 4)) 8 else 0

/-- The access that writes piece `i` of a chunk with what was read: the shadow backing of a publish window (R302). -/
def State.pieceWrite (s : State) (who : Who) (t : Transfer) (p : Nat × Nat × Nat) (i : Nat) (src : Option EngineAccess) :
    Run EngineAccess :=
  let at_ := (t.dest p.1 + BitVec.ofNat 64 p.2.1).toNat
  match src with
  | none => s.engineAccess who t.answers i .write true at_ p.2.2 (t.filled p) []
  | some x => s.engineAccess who t.answers i .write true at_ p.2.2 (s.homeBytes x.spans) (s.badOffsets 0 x.spans)

/-- All the pieces of a chunk: every one is read, and every destination translated and answered, before any byte is written on
this card. -/
def State.chunkPlan (s : State) (who : Who) (t : Transfer) (ps : List (Nat × Nat × Nat)) : Run (List EngineAccess) :=
  match ps.zipIdx.mapM fun p => s.pieceRead who t p.1 p.2 with
  | .error e => .error e
  | .ok reads =>
    match engineAnswers (reads.filterMap id) with
    | .error e => .error e
    | .ok _ =>
      match (ps.zipIdx.zip reads).mapM fun p => s.pieceWrite who t p.1.1 p.1.2 p.2 with
      | .error e => .error e
      | .ok writes => (engineAnswers writes).map fun _ => writes

/-- Change the transfer of a channel that `f` picks. -/
def State.onTransfer (s : State) (core ch : Nat) (pick : Transfer → Bool) (f : Transfer → Transfer) : State :=
  let c := s.core core
  let l := (c.chans[ch]?).getD []
  match l.find? pick with
  | none => s
  | some t => s.setCore core { c with chans := c.chans.setIfInBounds ch (l.map fun x => if x = t then f t else x) }

/-- COPY_CHUNK (R293, R294): the oldest unfinished transfer of a channel performs its next chunk. -/
def execCopyChunk (core ch : Nat) (s : State) : Host.Outcome State Fault Refusal :=
  match ((s.core core).chans[ch]?.getD []).find? fun t => decide (t.doneBytes < t.total) with
  | none => .next s
  | some t =>
    match s.block t.block with
    | none => .next s
    | some b =>
      if t.fault.isSome ∨ t.fabric.isSome then .next s
      else
        let who : Who := { core := core, pav := b.pav, ctx := b.ctx, block := t.block, uid := t.uid }
        let n := Nat.min 4096 (t.total - t.doneBytes)
        match s.chunkPlan who t (pieces t.rowBytes 4097 t.doneBytes n) with
        | .error e =>
          .next (s.engineStop who (.copy core ch)
            (fun s f g => s.onTransfer core ch (fun x => x == t) fun x => { x with fault := f, fabric := g }) e)
        | .ok plan =>
          let s := s.onTransfer core ch (fun x => x == t) fun x => { x with doneBytes := x.doneBytes + n, answers := [] }
          let read := ((pieces t.rowBytes 4097 t.doneBytes n).filter fun p => (t.source p.1).isSome).foldl (fun k p => k + p.2.2) 0
          .next ((plan.foldl (fun s x => s.engineWrite who.ctxKey x) s).countBytes who read n 0)

/-- TRANSFER_RETIRE (R292, R294): a transfer whose bytes are all performed retires. -/
def execTransferRetire (core ch : Nat) (id : Word) (s : State) : Host.Outcome State Fault Refusal :=
  let c := s.core core
  let l := (c.chans[ch]?).getD []
  match l.find? fun t => t.id == id && decide (t.total ≤ t.doneBytes) with
  | none => .next s
  | some t =>
    .next ((s.setCore core { c with chans := c.chans.setIfInBounds ch (dropIf (fun x => x == t) l) }).retireTransfer t ch)

end Sys2Proof.Machine
end

