-- ==== Sys2Proof/Machine/Gather.lean ====
section
/-! DEFINITION. Spread tables (R297 to R299) and the collective (R300), with the steps that perform their accesses. -/

namespace Sys2Proof.Machine

/-! ### Spread tables (R297, R298) -/

/-- Types of `RGATHER` and `RSCAT`. -/
def setGather (t : ETy) : Bool :=
  t == .n16 || t == .s16 || t == .f16 || t == .bf16 || setInt32 t || t == .f32 || t == .n64 || t == .s64 || t == .f64
/-- Types of `RSCATADD` and `COLL`. -/
def setGatherAdd (t : ETy) : Bool := setInt32 t || t == .f32 || t == .n64 || t == .s64

/-- A spread table's descriptor (R297). -/
structure Spread where
  core0 : Nat
  parts : Nat
  offset : Nat
  rows : Nat
  mbz : Nat
  deriving DecidableEq, Repr

/-- The descriptor in 16 bytes. -/
def Spread.ofBytes (bs : List Byte) : Spread :=
  { core0 := leNat (bs.take 2), parts := leNat ((bs.drop 2).take 2), offset := leNat ((bs.drop 4).take 4),
    rows := leNat ((bs.drop 8).take 4), mbz := leNat (bs.drop 12) }

/-- Step 2 of R298 on the descriptor. -/
def Spread.ok (d : Spread) : Bool :=
  decide (d.mbz = 0) && decide (1 ≤ d.parts) && decide (d.parts ≤ 224) && decide (d.core0 + d.parts ≤ 224)

/-- Core and peer address of element `x`, of `size` bytes (R172, R297). -/
def Spread.place (d : Spread) (size x : Nat) : Nat × Nat :=
  let c := d.core0 + x % d.parts
  (c, d.offset + x / d.parts * size)

/-- Memory key of an element: none where it does not lie in an allocation by R175. -/
def State.spreadKey (s : State) (who : Who) (d : Spread) (size x : Nat) : Option (Nat × Nat) :=
  let p := d.place size x
  match s.peerAllocation who.block p.1 with
  | none => none
  | some (base, len) => if len < p.2 + size then none else some (p.1, scratchKey p.1 (base + p.2))

/-- The three steps of R298: each active lane with its index and its element's core and key. -/
def State.spreadLanes (s : State) (w : Wave) (a : Pair) (b : Reg) (size : Nat) : Run (List (Nat × Nat × Nat × Nat)) :=
  let act := activeMask w
  let who := s.whoOf s.cur w
  let va := pairLane w.regs a (lowestLane act)
  if act = 0 then .ok []
  else if va.toNat % 16 ≠ 0 then trapAt .align act va
  else
    match s.oneAccess w who .read false false (lowestLane act) va 16 with
    | .error e => .error e
    | .ok l =>
      let d := Spread.ofBytes (s.readOne w l)
      let ix (i : Nat) : Nat := (lane w.regs b i).toNat
      let wrong := maskOf fun i => act.getLsbD i && decide (d.parts * d.rows ≤ ix i)
      if !d.ok then trapAt .illegalOperand act 0
      else if wrong ≠ 0 then trapAt .illegalOperand wrong 0
      else
        let keys := (lanesOf act).filterMap fun i => (s.spreadKey who d size (ix i)).map fun k => (i, ix i, k.1, k.2)
        let out := maskOf fun i => act.getLsbD i && !(keys.any fun k => k.1 == i)
        if out ≠ 0 then trapAt .scratchBounds out 0 else .ok keys

/-! ### Element messages -/

/-- Perform one element access at its scratchpad; the integer sum is fitted by R87, the f32 sum rounds by RNE (R299). -/
def State.performElement (s : State) (op : ElementOp) : State :=
  match op with
  | .store a data => s.performCells (cellsFrom a data)
  | .add a ty sat x =>
    let m := BitVec.ofNat 64 (s.mem.readLE a ty.bytes)
    s.performCells (cellsFrom a (leBytes (atomicAdd ty sat m x).toNat ty.bytes))

/-- Perform a wave's queued accesses to a core, which precede its later ones (R298). -/
def State.flushElements (s : State) (uid c : Nat) : State :=
  let x := s.core c
  let mine (m : ElementMsg) : Bool := m.uid == uid
  if x.inbox.any mine then
    (x.inbox.filter mine).foldl (fun s m => s.performElement m.op) (s.setCore c { x with inbox := dropIf mine x.inbox })
  else s

/-- Queue a message at a core's network interface; both sides count it (R221, R298). -/
def State.sendElement (s : State) (who : Who) (target : Nat) (op : ElementOp) : State :=
  let s := s.setCore who.core { s.core who.core with sent := (s.core who.core).sent + 1 }
  let c := s.core target
  s.setCore target { c with inbox := c.inbox ++ [{ target := target, block := who.block, uid := who.uid, op := op }],
                            recv := c.recv + 1 }

/-- ELEMENT_ACCESS (R298, R438): a core that is not halted performs the oldest access queued at its interface. -/
def execElementAccess (core : Nat) (s : State) : Host.Outcome State Fault Refusal :=
  let c := s.core core
  match c.inbox with
  | [] => .next s
  | m :: rest => if c.halted then .next s else .next ((s.setCore core { c with inbox := rest }).performElement m.op).wakeRanges

/-! ### RGATHER, RSCAT, RSCATADD (R299) -/

/-- RGATHER (R299): the elements are read after the wave's earlier accesses to their cores. -/
def rgatherBody (d : Reg) (a : Pair) (b : Reg) (s : State) (w : Wave) : Run (State × Wave) :=
  let t := wmET w.wm
  match accept setGather t [d] with
  | .error e => .error e
  | .ok _ =>
    let act := activeMask w
    let who := s.whoOf s.cur w
    match s.spreadLanes w a b t.bytes with
    | .error e => .error e
    | .ok keys =>
      let cores := distinct (keys.map fun k => k.2.2.1)
      if act = 0 then .ok (s, w)
      else if cores.any fun c => decide (c ≠ who.core) && (s.core c).halted then .error (.wait .engines)
      else
        let s := cores.foldl (fun s c => s.flushElements who.uid c) (s.release who.uid true)
        let bad := maskOf fun i => keys.any fun k => k.1 == i && (s.poisoned.contains (k.2.2.2 / 64)
          || s.poisoned.contains ((k.2.2.2 + t.bytes - 1) / 64))
        let vals := keys.map fun k => (k.1, loadedLane t (s.mem.bytes k.2.2.2 t.bytes))
        if bad ≠ 0 then trapPoison bad (BitVec.ofNat 64 peerBase) 0
        else
          match w.put act t d (fun i => (Assoc.find vals i).getD 0) (shape32 w.regs b |>.plain .u) with
          | .error e => .error e
          | .ok w' =>
            let n := if shape32 w.regs b = .u ∧ act = fullMask then 1 else keys.length
            .ok (s.countBytes who (n * t.bytes) 0 0, w')

/-- RGATHER (R299). -/
def execRgather (d : Reg) (a : Pair) (b : Reg) (s : State) : Host.Outcome State Fault Refusal :=
  issue (.rgather d a b) s (rgatherBody d a b)

/-- The lanes of a scatter that take effect, highest first: the highest active lane of each index. -/
def scatterLanes (keys : List (Nat × Nat × Nat × Nat)) : List (Nat × Nat × Nat × Nat) :=
  (keys.filter fun k => !(keys.any fun j => j.2.1 == k.2.1 && decide (k.1 < j.1))).reverse

/-- A scatter: `op` makes the message of a lane's value at its element. It waits while a core that it sends to is halted (R438). -/
def scatterBody (ok : ETy → Bool) (op : ETy → Word → DWord → Nat → ElementOp) (d : Reg) (a : Pair) (b : Reg) (s : State)
    (w : Wave) : Run (State × Wave) :=
  let t := wmET w.wm
  match accept ok t [d] with
  | .error e => .error e
  | .ok _ =>
    let who := s.whoOf s.cur w
    match s.spreadLanes w a b t.bytes with
    | .error e => .error e
    | .ok keys =>
      let hit := scatterLanes keys
      if hit.any fun k => decide (k.2.2.1 ≠ who.core) && (s.core k.2.2.1).halted then .error (.wait .engines)
      else
      let s := if hit.isEmpty then s else s.release who.uid true
      let s := hit.foldl (fun s k => s.sendElement who k.2.2.1 (op t w.wm (laneT w.regs t d k.1) k.2.2.2)) s
      .ok (s.countBytes who 0 (hit.length * t.bytes) 0, w)

/-- RSCAT before its issue (R299). -/
def rscatBody (d : Reg) (a : Pair) (b : Reg) (s : State) (w : Wave) : Run (State × Wave) :=
  scatterBody setGather (fun t _ x k => .store k (leBytes x.toNat t.bytes)) d a b s w
/-- RSCATADD before its issue (R299). -/
def rscataddBody (d : Reg) (a : Pair) (b : Reg) (s : State) (w : Wave) : Run (State × Wave) :=
  scatterBody setGatherAdd (fun t wm x k => .add k t (wmSAT wm) x) d a b s w

/-- RSCAT (R299). -/
def execRscat (d : Reg) (a : Pair) (b : Reg) (s : State) : Host.Outcome State Fault Refusal :=
  issue (.rscat d a b) s (rscatBody d a b)
/-- RSCATADD (R299). -/
def execRscatadd (d : Reg) (a : Pair) (b : Reg) (s : State) : Host.Outcome State Fault Refusal :=
  issue (.rscatadd d a b) s (rscataddBody d a b)

/-! ### COLL (R300) -/

/-- COLL (R300): the window is translated at issue as a store; the contributions leave with their element numbers. -/
def collBody (d : Reg) (a : Pair) (b : Reg) (s : State) (w : Wave) : Run (State × Wave) :=
  let t := wmET w.wm
  match accept setGatherAdd t [d] with
  | .error e => .error e
  | .ok _ =>
    let act := activeMask w
    let who := s.whoOf s.cur w
    let j := lowestLane act
    let va := pairLane w.regs a j
    let g := (lane w.regs b j).toNat
    if act = 0 then .ok (s, w)
    else if 3 ≤ g then trapAt .illegalOperand 0 0
    else if va.toNat % (32 * t.bytes) ≠ 0 then trapAt .align 0 va
    else if globalEnd ≤ va.toNat then trapAt .accessViolation 0 va
    else
      match s.translate who.core who.pav who.ctx va.toNat with
      | .fault => .error (.pageFault va .write act false)
      | .bad => trapAt .accessViolation 0 va
      | .ok p =>
        if !p.pub ∨ !p.w ∨ s.paKind (p.pa va.toNat) = .nothing then trapAt .accessViolation 0 va
        else
          let m : CollMsg := { id := s.fresh, core := who.core, pav := who.pav, ctx := who.ctx, block := who.block, uid := who.uid,
                               die := dieOf who.core, va := va, page := p.size, frame := p.frame, size := p.size,
                               ord := p.ord, offset := va.toNat - p.vbase, ty := t, op := BitVec.ofNat 2 g, sat := wmSAT w.wm,
                               data := (lanesOf act).map fun i => (i, laneT w.regs t d i) }
          let s := s.release who.uid true
          .ok ({ s with colls := s.colls ++ [m] }.bump.countBytes who 0 (m.data.length * t.bytes) 0, w)

/-- COLL (R300). -/
def execColl (d : Reg) (a : Pair) (b : Reg) (s : State) : Host.Outcome State Fault Refusal :=
  issue (.coll d a b) s (collBody d a b)

/-- The operation of a contribution (R123, R300). -/
def CollMsg.combine (m : CollMsg) (old x : DWord) : DWord :=
  if m.op = 0 then atomicAdd m.ty m.sat old x else extreme (decide (m.op = 2)) m.ty old x

/-- Combine one element in the backing that is shadow now (R302); a DR window has two replicas (R418). -/
def State.combineElement (s : State) (m : CollMsg) (e : Nat × DWord) : State :=
  let n := m.ty.bytes
  let pa := m.frame + m.offset + e.1 * n + (if s.sel.contains m.frame then 0 else m.size)
  let s := s.settle [{ key := pa, len := n, ord := m.ord, cache := 0, pub := true, por := false, partner := false,
                       scratch := false, va := 0 }]
  let x := m.combine (BitVec.ofNat 64 (s.mem.readLE pa n)) e.2
  let s := s.performCells (cellsFrom pa (leBytes x.toNat n))
  if m.ord = 3 then s.performCells (cellsFrom (otherReplica pa) (leBytes x.toNat n)) else s

/-- The combines of a window in partner memory, as atomics there (R300, R423). -/
def State.collAsks (s : State) (m : CollMsg) : List Ask :=
  let n := m.ty.bytes
  let base := m.frame + m.offset + (if s.sel.contains m.frame then 0 else m.size)
  let op : BitVec 3 := m.op.setWidth 3
  (m.data.map fun e => { kind := .atomic, tag := e.1, pa := base + e.1 * n, len := n,
                         va := m.va + BitVec.ofNat 64 (e.1 * n), page := m.page, data := leBytes e.2.toNat n,
                         aop := { op := op, ty := BitVec.ofNat 4 m.ty.code, sat := m.sat } : Ask }).filter fun a =>
    !(m.answers.any fun x => x.ask.tag == a.tag)

/-- COLL_COMBINE (R300, R302): the oldest contribution under way that does not wait for the partner card is combined at its
home. A fault response terminates the context, as R294 has it for engines. -/
def execCollCombine (s : State) : Host.Outcome State Fault Refusal :=
  match s.colls.find? fun m => m.fabric.isNone with
  | none => .next s
  | some m =>
    let others := dropIf (fun x => x.id == m.id) s.colls
    let done : State := { s with colls := others }.wakeRanges
    if s.paKind m.frame = .partner then
      let who : Who := { core := m.core, pav := m.pav, ctx := m.ctx, block := m.block, uid := m.uid }
      let asks := s.collAsks m
      if !asks.isEmpty then
        let mark (x : CollMsg) : CollMsg := if x.id = m.id then { x with fabric := some s.fresh } else x
        .next ({ s with colls := s.colls.map mark }.askGroup who (.coll m.id) asks)
      else if m.answers.any fun x => replyFault (some x.reply) then .next (s.terminate m.pav m.ctx Cause.fabricFault.code 0)
      else .next done
    else .next (m.data.foldl (fun (s : State) e => s.combineElement m e) { s with colls := others }).wakeRanges

end Sys2Proof.Machine
end

