-- ==== Sys2Proof/Machine/Mx.lean ====
section
/-! DEFINITION. What the matrix instructions share: tile slots (R309, R311), ownership (R306, R340), batches (R331), the
issue of an operation (R307), and operands (R312 to R319, R323, R326, R327). -/

namespace Sys2Proof.Machine

/-! ### Tile slots -/

/-- Slot `k` of a bank. -/
def slotOf (b : Bank) (k : Nat) : TileSlot := b[k]?.getD {}
/-- Element `n` of a slot: row*128 + column. -/
def TileSlot.elem (t : TileSlot) (n : Nat) : Word := (Assoc.find t.elems n).getD 0
/-- The elements of a pair tile from a function of the element number; zeros are unlisted. -/
def tileElems (f : Nat → Word) : Assoc Word :=
  (List.range 8192).filterMap fun n => let x := f n; if x = 0 then none else some (n, x)
/-- Replace one element. -/
def TileSlot.put (t : TileSlot) (n : Nat) (x : Word) : TileSlot :=
  { t with elems := if x = 0 then Assoc.erase t.elems n else Assoc.set t.elems n x }
/-- Element numbers that satisfy `f`, joined to the poisoned ones. -/
def TileSlot.poisonIf (t : TileSlot) (f : Nat → Bool) : TileSlot :=
  { t with poison := (List.range 8192).filter fun n => f n || t.poison.contains n }
/-- Set KIND where it is 0 (R311). -/
def TileSlot.fixKind (t : TileSlot) (k : BitVec 3) : TileSlot := if t.kind = 0 then { t with kind := k } else t
/-- Replace slot `k`. -/
def setSlot (b : Bank) (k : Nat) (t : TileSlot) : Bank := b.setIfInBounds k t

/-- The operation is block-scaled (R323). -/
def scaledOperand (o : MxOperand) : Bool :=
  match o.src with
  | .record _ _ r => shScaled r
  | _ => false

/-- The KIND an operation gives its slot (R343). -/
def mmaKind (a b : MxOperand) : BitVec 3 :=
  if scaledOperand a || scaledOperand b then 3 else if a.ty.isInt then 2 else 1

/-- The slot KINDs of both banks. -/
structure Kinds where
  working : Nat → BitVec 3
  visible : Nat → BitVec 3

/-- Change one KIND. -/
def putKind (f : Nat → BitVec 3) (k : Nat) (x : BitVec 3) : Nat → BitVec 3 := fun j => if j = k then x else f j
/-- Change one KIND where it is 0. -/
def fixKindAt (f : Nat → BitVec 3) (k : Nat) (x : BitVec 3) : Nat → BitVec 3 := if f k = 0 then putKind f k x else f

/-- The KINDs an operation leaves (R311). -/
def MxKind.kinds (x : MxKind) (k : Kinds) : Kinds :=
  match x with
  | .mma slot _ a b _ =>
    if mmaKind a b = 3 then
      { k with working := fixKindAt (fixKindAt k.working slot.toNat 3) (slot.toNat + 1) 4 }
    else { k with working := fixKindAt k.working slot.toNat (mmaKind a b) }
  | .taeval slot _ _ _ => { k with working := putKind k.working slot.toNat 5 }
  | .acst slot kind _ => { k with visible := fixKindAt k.visible slot.toNat kind }
  | .zero mask => { k with working := fun j => if mask.getLsbD j then 0 else k.working j }
  | .sacc dst _ _ => { k with working := putKind k.working dst.toNat 1 }
  | _ => k

/-- The KINDs as every issued operation leaves them: what step 4 of R340 checks. -/
def MatrixUnit.kinds (u : MatrixUnit) : Kinds :=
  u.ops.foldl (fun k o => o.kind.kinds k)
    { working := fun j => (slotOf u.working j).kind, visible := fun j => (slotOf u.visible j).kind }

/-- An operation touches a slot of a bank named in a mask (R310, R350). -/
def MxKind.touches (x : MxKind) (mask : BitVec 8) : Bool :=
  match x with
  | .mma slot _ a b _ => mask.getLsbD slot.toNat || (mmaKind a b = 3 && mask.getLsbD (slot.toNat + 1))
  | .drain slot _ _ _ _ _ => mask.getLsbD slot.toNat || mask.getLsbD (slot.toNat + 1)
  | .taeval slot _ _ _ => mask.getLsbD slot.toNat
  | .acst slot _ _ => mask.getLsbD slot.toNat
  | .zero m => decide (m &&& mask ≠ 0)
  | .sacc dst src _ => mask.getLsbD dst.toNat || mask.getLsbD src.toNat
  | .redx slot _ _ _ => mask.getLsbD slot.toNat
  | _ => false

/-- A reduction into the pair that sends it writes a slot named in a mask when its message arrives (R354). -/
def MxKind.arrivesIn (x : MxKind) (pair : Nat) (mask : BitVec 8) : Bool :=
  match x with
  | .redx _ target tslot _ => pairOf target == pair && mask.getLsbD tslot.toNat
  | _ => false

/-- An issued operation still uses a slot named in a mask: what `ACSWAP` waits for (R347). -/
def MatrixUnit.uses (u : MatrixUnit) (pair : Nat) (mask : BitVec 8) : Bool :=
  (u.ops.any fun o => o.kind.touches mask) || (u.ops ++ u.sent).any fun o => o.kind.arrivesIn pair mask

/-- The working slots that an operation writes. -/
def MxKind.wrote (x : MxKind) : BitVec 8 :=
  match x with
  | .mma slot _ a b _ => if mmaKind a b = 3 then 3#8 <<< slot.toNat else 1#8 <<< slot.toNat
  | .taeval slot _ _ _ => 1#8 <<< slot.toNat
  | .zero m => m
  | .sacc dst _ _ => 1#8 <<< dst.toNat
  | _ => 0

/-- An issued operation still writes a visible slot: what `ACLD`, `SACC` and `LEAFGATHER` wait for (R348, R352, R359). -/
def MatrixUnit.writesVisible (u : MatrixUnit) (slot : Nat) : Bool :=
  u.ops.any fun o => match o.kind with
    | .acst k _ _ => k.toNat == slot
    | _ => false

/-! ### Ownership and the checks of R340 -/

/-- The unit a block's matrix instructions reach: reset when ownership passes (R306). -/
def State.takeUnit (s : State) (pair block : Nat) : State :=
  s.setUnit pair { ({} : MatrixUnit) with owner := some block, redx := (s.unit pair).redx }

/-- Step 1: the leader issues, whatever the lanes (R305). -/
def leads (s : State) (_ : Wave) : Run Unit := if coreOf s.cur % 2 = 0 then .ok () else trapE .pairRole

/-- Steps 2 to 4 of R340: `prep` makes the checks that depend on registers, records and memory, `effect` those against slot
states and the effect. -/
def pairBody {α : Type} (prep : State → Wave → Run (State × α)) (effect : α → State → Wave → Run (State × Wave)) (s : State)
    (w : Wave) : Run (State × Wave) :=
  let pair := pairOf (coreOf s.cur)
  match prep s w with
  | .error e => .error e
  | .ok (s', a) =>
    match (s'.unit pair).owner with
    | none => effect a (s'.takeUnit pair w.block) w
    | some b => if b = w.block then effect a s' w else .error (.wait (.owner pair))

/-- Ownership taken at step 3 stays with the block whatever step 4 finds (R340). -/
def State.claim {α : Type} (s : State) (prep : State → Wave → Run (State × α)) : State :=
  match s.wave s.cur with
  | none => s
  | some w =>
    match prep s w with
    | .error _ => s
    | .ok _ =>
      if (s.unit (pairOf (coreOf s.cur))).owner.isNone then s.takeUnit (pairOf (coreOf s.cur)) w.block else s

/-- Check 5 of R81 and step 1 of R340 pass. -/
def pairReady (types : Wave → Run Unit) (role : State → Wave → Run Unit) (s : State) (w : Wave) : Run Unit :=
  match types w with
  | .error e => .error e
  | .ok _ => role s w

/-- A pair operation (R305, R340): `types` is check 5 of R81, `role` step 1, and `on` holds where the instruction acts at
all. -/
def issuePair {α : Type} (i : Instr) (s : State) (types : Wave → Run Unit) (role : State → Wave → Run Unit) (on : Wave → Bool)
    (prep : State → Wave → Run (State × α)) (effect : α → State → Wave → Run (State × Wave)) :
    Host.Outcome State Fault Refusal :=
  let claimed := match s.wave s.cur with
    | some w => if on w && (pairReady types role s w).toBool then s.claim prep else s
    | none => s
  issue i claimed fun s w =>
    match pairReady types role s w with
    | .error e => .error e
    | .ok _ => if on w then pairBody prep effect s w else .ok (s, w)

/-- Every element type is accepted. -/
def anyTypes (_ : Wave) : Run Unit := .ok ()
/-- Some lane is active (R340). -/
def someLane (w : Wave) : Bool := activeMask w != 0
/-- The instruction acts whatever the lanes (R340). -/
def everyLane (_ : Wave) : Bool := true

/-- A pair operation keeps the records that it reads whatever it then waits for (R330), where the core may issue it. -/
def State.pairRecords (s : State) (ids : Wave → List Nat) : State :=
  if coreOf s.cur % 2 = 0 then s.withRecords ids else s

/-! ### Issue, batches and waits (R307, R331, R345) -/

/-- Issue an operation of the wave: its place is the end of the unit's order; its engine accesses follow every
earlier store of the wave (R194). -/
def State.issueMx (s : State) (w : Wave) (who : Who) (joins : Bool) (kind : MxKind) : State × Wave :=
  let s := s.release who.uid true
  let pair := pairOf who.core
  let u := s.unit pair
  let o : MxOp := { id := s.fresh, block := who.block, uid := who.uid, core := who.core, kind := kind, joins := joins }
  ((s.setUnit pair { u with ops := u.ops ++ [o] }).bump,
   if joins then { w with openBatch := w.openBatch + 1 } else w)

/-- Close a wave's open batch as BNEXT (R331). -/
def MatrixUnit.close (u : MatrixUnit) (uid : Nat) : MatrixUnit :=
  let f (o : MxOp) : MxOp := if o.uid = uid ∧ o.joins ∧ o.batch = none then { o with batch := some u.batchNext } else o
  let past (x : MxPast) : MxPast := match x.write with
    | .op o => { x with write := .op (f o) }
    | .arrival _ => x
  { u with ops := u.ops.map f, sent := u.sent.map f, past := u.past.map past, batchNext := u.batchNext + 1 }

/-- Retire the batches that are complete, in ascending number; `n` bounds the search (R331). -/
def MatrixUnit.retireBatches : Nat → MatrixUnit → MatrixUnit
  | 0, u => u
  | n + 1, u =>
    let b := u.batchDone + 1
    if b = u.batchNext ∨ (u.ops ++ u.sent).any (fun o => o.batch == some b) then u
    else MatrixUnit.retireBatches n { u with batchDone := b }

/-- Batches closed and not retired. -/
def MatrixUnit.openCount (u : MatrixUnit) : Nat := (u.batchNext - u.batchDone).toNat

/-- Batch `b` is closed (R346). -/
def MatrixUnit.closed (u : MatrixUnit) (b : Word) : Bool :=
  decide (0 < (u.batchNext - b).toNat) && decide ((u.batchNext - b).toNat ≤ 2 ^ 31)
/-- Batch `b`, which is closed, has retired. -/
def MatrixUnit.retired (u : MatrixUnit) (b : Word) : Bool := decide (u.openCount ≤ (u.batchNext - b).toNat)

/-- Two operations of one wave in one batch, open or closed (R331). -/
def MxOp.withIn (o p : MxOp) : Bool := p.joins && o.joins && p.uid == o.uid && p.batch == o.batch

/-- The write is one of an operation's batch. -/
def MxPast.inBatch (x : MxPast) (o : MxOp) : Bool :=
  match x.write with
  | .op p => o.withIn p
  | .arrival _ => false

/-- An operation that the checker tests (R335). -/
def MxKind.checked : MxKind → Bool
  | .mma _ _ _ _ _ => true
  | _ => false

/-- An operation not executed may still have its batch, and with it a slot named in a mask, executed again (R335, R347). -/
def MatrixUnit.mayRewrite (u : MatrixUnit) (mask : BitVec 8) : Bool :=
  u.ops.any fun o => o.kind.checked && u.past.any fun x => x.inBatch o && decide (x.slots &&& mask ≠ 0)

/-- A write belongs to a batch that has not retired. -/
def MatrixUnit.unretired (u : MatrixUnit) (x : MxPast) : Bool :=
  match x.write with
  | .op o => o.joins && (match o.batch with | some b => !u.retired b | none => true)
  | .arrival _ => false

/-- The unit keeps the writes since the first of a batch that has not retired (R335). -/
def MatrixUnit.forget (u : MatrixUnit) : MatrixUnit := { u with past := u.past.dropWhile fun x => !u.unretired x }

/-- Retire what can retire, and let the owner's waves that wait for the unit look again (R331, R346). -/
def State.settleUnit (s : State) (pair : Nat) : State :=
  let u := s.unit pair
  let s := s.setUnit pair (u.retireBatches u.openCount).forget
  let wake (x : Wave) : Wave :=
    match x.wait with
    | .batch => { x with wait := .none }
    | .writers m => if m = 0 then { x with wait := .none } else x
    | _ => x
  { s with waves := s.waves.map fun (x : Nat × Wave) => (x.1, if u.owner = some x.2.block then wake x.2 else x.2) }.wakeRanges

/-! ### Operands -/

/-- The pattern generator of R327: the kept positions of group `g` and column `c`. -/
def keptAt (seed g c n m : Nat) : List Nat :=
  let x0 : Word := BitVec.ofNat 32 seed ^^^ BitVec.ofNat 32 (g * 128 + c)
  let x0 : Word := if x0 = 0 then 1 else x0
  let key (t : Nat) : Nat := (lfsrSteps (t + 1) x0).toNat % 65536
  let keys := (List.range m).map fun t => (t, key t)
  let before (a b : Nat × Nat) : Bool := decide (a.2 < b.2) || (a.2 == b.2 && decide (a.1 < b.1))
  (List.range m).filter fun t =>
    decide ((keys.filter fun k => before k (t, (Assoc.find keys t).getD 0)).length < n)

/-- Bytes of an element of `n` bits in a run, at element number `x` (R318). -/
def bitOffset (t : ETy) (x : Nat) : Nat := x * t.width / 8

/-- A byte of register rows laid end to end (R314). -/
def rowsByte (rows : List (Vector Word 32)) (o : Nat) : Byte :=
  match rows[o / 128]? with
  | some r => (rowLane r (o % 128 / 4)).extractLsb' (8 * (o % 4)) 8
  | none => 0

/-- Offset of a scratchpad element from BASE (R313): K-block q, row ρ, byte b of a row of `seg` segments. -/
def scratchOffset (rp tp rot seg q row b : Nat) : Nat := q * tp + row * rp + 16 * ((b / 16 + row * rot) % seg) + b % 16

/-- Where element (row, col) of a SRC 0 or 1 operand lies: offset from BASE (R313). -/
def scratchAt (isB : Bool) (t : ETy) (rp tp rot row col : Nat) : Nat :=
  if isB then scratchOffset rp tp rot (128 * t.bytes / 16) (row / 32) (row % 32) (col * t.bytes)
  else scratchOffset rp tp rot (32 * t.bytes / 16) (col / 32) row (col % 32 * t.bytes)

/-- Number of element (row, col) of a SRC 2 operand (R314). -/
def regsAt (isB : Bool) (row col : Nat) : Nat :=
  if isB then (row / 32 * 32 + row % 32) * 128 + col else (col / 32 * 64 + row) * 32 + col % 32

/-- The memory key of a stored element, where it is one (R313, R315). -/
def MxOperand.key (o : MxOperand) (isB : Bool) (row col : Nat) : Option Nat :=
  match o.src with
  | .scratch key rp tp rot => some (key + scratchAt isB o.ty rp tp rot row col)
  | .regs _ _ => none
  | .record key _ r =>
    if row < shExtent r 0 ∧ col < shExtent r 1 then some (key + row * shStride r + bitOffset o.ty col) else none

/-- The pattern of stored element (row, col); none where the element reads as zero (R313 to R315, R318). -/
def State.storedElem (s : State) (o : MxOperand) (isB : Bool) (row col : Nat) : Option Nat :=
  match o.src with
  | .regs rows _ => some (leNat ((List.range o.ty.bytes).map fun i => rowsByte rows (regsAt isB row col * o.ty.bytes + i)))
  | _ => (o.key isB row col).map fun k =>
    if o.ty = .cb4 then (s.mem.read k).toNat / 16 ^ (col % 2) % 16 else s.mem.readLE k o.ty.bytes

/-- A pattern-sparse record of an operand. -/
def MxOperand.sparse (o : MxOperand) : Option Line :=
  match o.src with
  | .record _ _ r => if shSparse r then some r else none
  | _ => none

/-- The pattern of B(k, c), or of A(r, k); none where the element is zero, as at a position not kept (R326). -/
def State.operandElem (s : State) (o : MxOperand) (isB : Bool) (row col : Nat) : Option Nat :=
  match o.sparse with
  | none => s.storedElem o isB row col
  | some r =>
    let m := shGroup r
    let kept := keptAt (shSeed r) (row / m) col (shKept r) m
    if kept.contains (row % m) then s.storedElem o isB (row / m * shKept r + indexIn (row % m) kept) col else none

/-- The value of an element of a float operand: a cb4 element is its codebook's entry (R319). -/
def MatrixUnit.floatElem (u : MatrixUnit) (o : MxOperand) : Option Nat → FVal
  | none => .num false 0 0
  | some x =>
    if o.ty = .cb4 then
      let cb := match o.src with
        | .record _ _ r => shCodebook r
        | _ => 0
      ETy.bf16.fmt.decode (((u.codebooks[cb]?.getD (Vector.replicate 16 0))[x]?).getD 0).toNat
    else o.ty.fmt.decode x

/-- K-blocks and rows or columns that carry a scale byte: its memory key, none where it contributes -127 (R323). -/
def MxOperand.scaleKey (o : MxOperand) (isB : Bool) (q n : Nat) : Option Nat :=
  match o.src with
  | .record _ key r =>
    let rows := shExtent r 0
    let cols := shExtent r 1
    if isB then
      let depth := if shSparse r then rows * shGroup r / shKept r else rows
      if n < cols ∧ 32 * q < depth then some (key + q * cols + n) else none
    else if n < rows ∧ 32 * q < cols then some (key + n * ((cols + 31) / 32) + q) else none
  | _ => none

/-- K-block `q` of row or column `n` lies outside the stored elements of a block-scaled operand: its products are zero
(R323). -/
def MxOperand.past (o : MxOperand) (isB : Bool) (q n : Nat) : Bool := scaledOperand o && (o.scaleKey isB q n).isNone

/-- The unbiased scale exponent of a K-block of row or column `n`; none for a NaN block (R323). -/
def State.scaleExp (s : State) (o : MxOperand) (isB : Bool) (q n : Nat) : Option Int :=
  if !scaledOperand o then some 0
  else match o.scaleKey isB q n with
    | none => some (-127)
    | some k => if s.mem.read k = 0xFF then none else some ((s.mem.read k).toNat - 127)

/-- A byte of a memory key is on a poisoned line. -/
def State.keyPoisoned (s : State) (k n : Nat) : Bool := s.poisoned.contains (k / 64) || s.poisoned.contains ((k + n - 1) / 64)

/-- Stored element (row, col) is poisoned: a byte of it is on a poisoned line, or it comes from a poisoned row of registers (R336). -/
def State.elemPoisoned (s : State) (o : MxOperand) (isB : Bool) (row col : Nat) : Bool :=
  match o.src with
  | .regs _ bad => bad.contains (regsAt isB row col * o.ty.bytes / 128)
  | _ => match o.key isB row col with
    | some x => s.keyPoisoned x (Nat.max 1 o.ty.bytes)
    | none => false

/-- No operand byte is poisoned anywhere: neither memory nor the operand's registers hold a mark. -/
def State.operandClean (s : State) (o : MxOperand) : Bool :=
  s.poisoned.isEmpty && match o.src with
    | .regs _ bad => bad.isEmpty
    | _ => true

/-- Row (of A) or column (of B) `n` reads a poisoned byte (R336). -/
def State.operandPoisoned (s : State) (o : MxOperand) (isB : Bool) (k n : Nat) : Bool :=
  if s.operandClean o then false
  else
    let rows := match o.sparse with
      | some r => k * shKept r / shGroup r
      | none => k
    (List.range (if isB then rows else k)).any (fun j => if isB then s.elemPoisoned o true j n else s.elemPoisoned o false n j)
      || (scaledOperand o && (List.range (k / 32)).any fun q =>
        match o.scaleKey isB q n with
        | some x => s.keyPoisoned x 1
        | none => false)

end Sys2Proof.Machine
end

