-- ==== Sys2Proof/Machine/Matrix.lean ====
section
/-! DEFINITION. The matrix instructions as they issue (R343 to R355): MMA, MMAP, batches, slot management, accumulator
moves, drains, scaled accumulation, codebooks, reduction and the record cache. -/

namespace Sys2Proof.Machine

/-! ### MMA and MMAP (R312, R329, R343, R344) -/

/-- An operand descriptor (R312). -/
structure MxDesc where
  lo : Nat
  hi : Nat
  deriving DecidableEq, Repr

/-- RP in bytes. -/
def MxDesc.rp (d : MxDesc) : Nat := d.hi % 4096 * 16
/-- TP in bytes. -/
def MxDesc.tp (d : MxDesc) : Nat := d.hi / 4096 % 4096 * 16
/-- ROT. -/
def MxDesc.rot (d : MxDesc) : Nat := d.hi / 2 ^ 24 % 16
/-- SRC. -/
def MxDesc.src (d : MxDesc) : Nat := d.hi / 2 ^ 28

/-- The descriptor in a register pair at the elected lane. -/
def Wave.mxDesc (w : Wave) (p : Pair) : MxDesc :=
  let j := lowestLane (activeMask w)
  { lo := (lane w.regs (pairReg p) j).toNat, hi := (lane w.regs (oddOf (pairReg p)) j).toNat }

/-- The types of an operand (R320). -/
def mxFloat (t : ETy) : Bool := t == .f16 || t == .bf16 || t == .f32 || narrowFloat t || t == .cb4

/-- Check 5 (R344). -/
def mmaTypes (w : Wave) : Run Unit :=
  let a := wmET w.wm
  let b := wmST w.wm
  require ((a.isInt32 && b.isInt32) || (mxFloat a && mxFloat b)) .illegalType

/-- The first row of R344's step 2. -/
def MxDesc.fieldsOk (d : MxDesc) (isB : Bool) (t : ETy) (k : Nat) : Bool :=
  let plain := d.hi % 2 ^ 28 == 0
  match d.src with
  | 0 => t != .cb4
  | 1 => t != .cb4
  | 2 => plain && decide (d.lo < 256) && decide (d.lo + mxRegs isB t k ≤ 256) && t != .cb4
  | 3 => plain && decide (d.lo < 65536)
  | _ => false

/-- Read an operand's record (R330). -/
def State.mxRecord (s : State) (w : Wave) (who : Who) (d : MxDesc) : Run (State × Option (DWord × Line)) :=
  if d.src = 3 then
    match s.useRecord w who d.lo with
    | .error e => .error e
    | .ok (s', va, r) => .ok (s', some (va, r))
  else .ok (s, none)

/-- An own-scratch or peer-scratch address of a core of the pair (R315). -/
def pairScratch (core va : Nat) : Bool :=
  match windowOf va with
  | some .own => true
  | some (.peer c) => decide (pairOf c = pairOf core)
  | _ => false

/-- R329 for a matrix use of type `t`. -/
def mxRecordOk (core : Nat) (t : ETy) (k : Nat) (r : Line) : Bool :=
  let m := shGroup r
  shPlain r && (shType r == t) && !shPublish r && pairScratch core (shBase r) && decide (shRowBits r / 8 ≤ shStride r)
    && (!shScaled r || ((t == .e4m3 || t == .e5m2 || t == .cb4) && pairScratch core (shScale r)))
    && (t != .cb4 || (decide (shCodebook r ≤ 3) && decide (shExtent r 1 % 2 = 0)))
    && (!shSparse r || ((m == 4 || m == 8 || m == 16 || m == 32) && decide (1 ≤ shKept r) && decide (shKept r ≤ m / 2)
      && decide (k % m = 0)))

/-- Rows of `n` bytes from scratch address `va` on: the memory key of the first byte, or the first byte past the allocation
(R344). -/
def State.mxRows (s : State) (who : Who) (va rows pitch n : Nat) : Run Nat :=
  match (windowOf va).bind fun win => s.scratchTarget who win va with
  | none => trapAt .scratchBounds 0 (BitVec.ofNat 64 va)
  | some (c, base, size, o) =>
    match (List.range rows).find? fun r => decide (size < o + r * pitch + n) with
    | some r => trapAt .scratchBounds 0 (BitVec.ofNat 64 (va + r * pitch + (size - (o + r * pitch))))
    | none => .ok (scratchKey c (base + o))

/-- Rows that a record stores of an operand: those of the kept elements where it is pattern-sparse (R326). -/
def storedRows (isB : Bool) (k : Nat) (r : Line) : Nat :=
  let n := (mxDims isB k).1
  Nat.min (if shSparse r then n * shKept r / shGroup r else n) (shExtent r 0)

/-- The scale bytes of a record: address, rows, pitch, and bytes read of a row (R323). -/
def scaleRun (isB : Bool) (k : Nat) (r : Line) : Nat × Nat × Nat :=
  let cols := shExtent r 1
  if isB then
    let depth := if shSparse r then shExtent r 0 * shGroup r / shKept r else shExtent r 0
    (Nat.min (k / 32) ((depth + 31) / 32), cols, Nat.min 128 cols)
  else
    let nq := (cols + 31) / 32
    (Nat.min 64 (shExtent r 0), nq, Nat.min (k / 32) nq)

/-- Where an operand's bytes lie, every byte within its allocation (R313 to R315). -/
def State.mxSource (s : State) (w : Wave) (who : Who) (isB : Bool) (t : ETy) (k : Nat) (d : MxDesc) (r : Option (DWord × Line)) :
    Run MxSource :=
  match r with
  | some (_, r) =>
    let rows := storedRows isB k r
    let n := Nat.min (mxDims isB k).2 (shExtent r 1)
    if rows = 0 ∨ n = 0 then .ok (.record 0 0 r)
    else
      match s.mxRows who (shBase r) rows (shStride r) ((n * t.width + 7) / 8) with
      | .error e => .error e
      | .ok key => .ok (.record key 0 r)
  | none =>
    if d.src = 2 then
      let reg (n : Nat) : Reg := regAt (BitVec.ofNat 8 d.lo) n
      let rows := List.range (mxRegs isB t k)
      .ok (.regs (rows.map fun n => rowOf (lane w.regs (reg n))) (rows.filter fun n => w.badRows.contains (reg n)))
    else
      let core := 2 * pairOf who.core + d.src
      match (s.block who.block).bind fun b => if d.src = 1 ∧ !b.paired then none else (b.half core).map fun h => (h.base, b.scratch) with
      | none => trapAt .scratchBounds 0 (BitVec.ofNat 64 d.lo)
      | some (base, size) =>
        let dims := mxDims isB k
        let off (i : Nat) : Nat := d.lo + scratchAt isB t d.rp d.tp d.rot (i / dims.2) (i % dims.2)
        match (List.range (dims.1 * dims.2)).find? fun i => decide (size < off i + t.bytes) with
        | some i => trapAt .scratchBounds 0 (BitVec.ofNat 64 (off i))
        | none => .ok (.scratch (scratchKey core (base + d.lo)) d.rp d.tp d.rot)

/-- Complete a block-scaled source with its scale bytes. -/
def State.mxScales (s : State) (who : Who) (isB : Bool) (k : Nat) (x : MxSource) : Run MxSource :=
  match x with
  | .record key _ r =>
    let run := scaleRun isB k r
    if !shScaled r ∨ run.1 = 0 ∨ run.2.2 = 0 then .ok x
    else
      match s.mxRows who (shScale r) run.1 run.2.1 run.2.2 with
      | .error e => .error e
      | .ok sk => .ok (.record key sk r)
  | _ => .ok x

/-- Steps 1 and 2 of R344. -/
def mmaPrep (sparse : Bool) (slot : Slot) (kk : BitVec 4) (a b : Pair) (s : State) (w : Wave) : Run (State × MxKind) :=
  let who := s.whoOf s.cur w
  let k := 32 * (kk.toNat + 1)
  let ta := wmET w.wm
  let tb := wmST w.wm
  let da := w.mxDesc a
  let db := w.mxDesc b
  if !da.fieldsOk false ta k ∨ !db.fieldsOk true tb k then trapE .illegalOperand
  else
    match s.mxRecord w who da with
    | .error e => .error e
    | .ok (s, ra) =>
      match s.mxRecord w who db with
      | .error e => .error e
      | .ok (s, rb) =>
        let flag (r : Option (DWord × Line)) : Bool := match r with | some x => shSparse x.2 | none => false
        let addr (r : Option (DWord × Line)) : DWord := match r with | some x => x.1 | none => 0
        let fine (t : ETy) (r : Option (DWord × Line)) : Bool := match r with | some x => mxRecordOk who.core t k x.2 | none => true
        if flag ra then trapAt .illegalOperand 0 (addr ra)
        else if flag rb ≠ sparse then trapAt .illegalOperand 0 (addr rb)
        else if !fine ta ra then trapAt .shapeAlign 0 (addr ra)
        else if !fine tb rb then trapAt .shapeAlign 0 (addr rb)
        else if da.src < 2 ∧ da.lo % 16 ≠ 0 then trapAt .align 0 (BitVec.ofNat 64 da.lo)
        else if db.src < 2 ∧ db.lo % 16 ≠ 0 then trapAt .align 0 (BitVec.ofNat 64 db.lo)
        else
          match s.mxSource w who false ta k da ra with
          | .error e => .error e
          | .ok xa =>
            match s.mxSource w who true tb k db rb with
            | .error e => .error e
            | .ok xb =>
              match s.mxScales who false k xa with
              | .error e => .error e
              | .ok xa =>
                match s.mxScales who true k xb with
                | .error e => .error e
                | .ok xb => .ok (s, .mma slot k { src := xa, ty := ta } { src := xb, ty := tb } (wmSAT w.wm))

/-- Step 4 of R344. -/
def mmaSlotOk (k : Kinds) (x : MxKind) : Bool :=
  match x with
  | .mma slot _ a b _ =>
    let kind := mmaKind a b
    let has (n : Nat) (want : BitVec 3) : Bool := k.working n == 0 || k.working n == want
    if kind = 3 then slot.toNat % 2 == 0 && has slot.toNat 3 && has (slot.toNat + 1) 4 else has slot.toNat kind
  | _ => true

/-- Step 4 and the issue of an `MMA` or `MMAP`. -/
def mmaEffect (x : MxKind) (s : State) (w : Wave) : Run (State × Wave) :=
  let who := s.whoOf s.cur w
  if mmaSlotOk (s.unit (pairOf who.core)).kinds x then .ok (s.issueMx w who true x) else trapE .illegalOperand

/-- The records that an `MMA` or `MMAP` uses, once its descriptors' fields pass. -/
def mmaRecords (k : BitVec 4) (a b : Pair) (w : Wave) : List Nat :=
  let n := 32 * (k.toNat + 1)
  let da := w.mxDesc a
  let db := w.mxDesc b
  if !someLane w ∨ !(mmaTypes w).toBool ∨ !da.fieldsOk false (wmET w.wm) n ∨ !db.fieldsOk true (wmST w.wm) n then []
  else (if da.src = 3 then [da.lo] else []) ++ (if db.src = 3 then [db.lo] else [])

/-- MMA (R343). -/
def execMma (slot : Slot) (k : BitVec 4) (a b : Pair) (s : State) : Host.Outcome State Fault Refusal :=
  issuePair (.mma slot k a b) (s.pairRecords (mmaRecords k a b)) mmaTypes leads someLane (mmaPrep false slot k a b) mmaEffect
/-- MMAP (R326, R343). -/
def execMmap (slot : Slot) (k : BitVec 4) (a b : Pair) (s : State) : Host.Outcome State Fault Refusal :=
  issuePair (.mmap slot k a b) (s.pairRecords (mmaRecords k a b)) mmaTypes leads someLane (mmaPrep true slot k a b) mmaEffect

/-! ### Batches (R345, R346) -/

/-- Step 2 of a pair operation that has no such check. -/
def noPrep (s : State) (_ : Wave) : Run (State × Unit) := .ok (s, ())

/-- MXFENCE (R345): the budget check comes before the ownership wait. -/
def execMxfence (d : Reg) (s : State) : Host.Outcome State Fault Refusal :=
  issuePair (.mxfence d) s anyTypes leads everyLane
    (fun s w =>
      match w.put32 w.exec d (fun _ => 0) .u with
      | .error e => .error e
      | .ok _ => .ok (s, ()))
    fun _ s w =>
      let pair := pairOf (coreOf s.cur)
      let u := s.unit pair
      match w.put32 w.exec d (fun _ => u.batchNext) .u with
      | .error e => .error e
      | .ok w' => .ok ((s.setUnit pair (u.close w.uid)).settleUnit pair, { w' with openBatch := 0 })

/-- MXWAIT (R346, R459): a follower's wave issues it only in a paired block (R305). -/
def execMxwait (a : Reg) (s : State) : Host.Outcome State Fault Refusal :=
  issuePair (.mxwait a) s anyTypes
    (fun s w => if coreOf s.cur % 2 = 0 ∨ ((s.block w.block).map Block.paired).getD false then .ok () else trapE .pairRole)
    everyLane noPrep fun _ s w =>
      let u := s.unit (pairOf (coreOf s.cur))
      let b := lane w.regs a w.leadLane
      if !u.closed b then trapE .illegalOperand
      else if u.retired b then .ok (s, w)
      else .error (.wait .batch)

/-! ### Slot management (R347) -/

/-- Some slot is named: a mask of 0 has no effect, and takes no ownership (R347). -/
def someSlot (mask : BitVec 8) (_ : Wave) : Bool := mask != 0

/-- ACZERO (R347): takes effect at its place in issue order. -/
def execAczero (mask : BitVec 8) (s : State) : Host.Outcome State Fault Refusal :=
  issuePair (.aczero mask) s anyTypes leads (someSlot mask) noPrep fun _ s w =>
    .ok (s.issueMx w (s.whoOf s.cur w) false (.zero mask))

/-- Exchange the named slots of the banks (R309). No retry reaches what a named slot held before (R347). -/
def MatrixUnit.swap (u : MatrixUnit) (mask : BitVec 8) : MatrixUnit :=
  let swapped (b : Bank) : Bank := b.mapIdx fun k t => if mask.getLsbD k then slotOf u.visible k else t
  { u with working := swapped u.working,
           visible := u.visible.mapIdx fun k t => if mask.getLsbD k then slotOf u.working k else t,
           past := u.past.map fun x => { x with working := swapped x.working, slots := x.slots &&& ~~~mask } }

/-- ACSWAP (R347): waits at the issue point until no issued operation still uses a named slot. -/
def execAcswap (mask : BitVec 8) (s : State) : Host.Outcome State Fault Refusal :=
  issuePair (.acswap mask) s anyTypes leads (someSlot mask) noPrep fun _ s w =>
    let pair := pairOf (coreOf s.cur)
    let u := s.unit pair
    if u.uses pair mask || u.mayRewrite mask then .error (.wait (.writers mask))
    else .ok (s.setUnit pair (u.swap mask), w)

/-! ### Accumulator moves (R348) -/

/-- Element number of a selector. -/
def selElem (x : Word) : Nat := x.toNat % 64 * 128 + x.toNat / 64 % 128

/-- The selectors' must-be-zero bits. -/
def selPrep (a : Reg) (s : State) (w : Wave) : Run (State × Unit) :=
  let act := activeMask w
  let bad := maskOf fun i => act.getLsbD i && decide (2 ^ 13 ≤ (lane w.regs a i).toNat)
  if bad ≠ 0 then trapAt .illegalOperand bad 0 else .ok (s, ())

/-- ACLD (R348, R361). -/
def execAcld (d a : Reg) (slot : Slot) (s : State) : Host.Outcome State Fault Refusal :=
  issuePair (.acld d a slot) s anyTypes leads someLane (selPrep a) fun _ s w =>
    let act := activeMask w
    let u := s.unit (pairOf (coreOf s.cur))
    let t := slotOf u.visible slot.toNat
    let el (i : Nat) : Nat := selElem (lane w.regs a i)
    let bad := maskOf fun i => act.getLsbD i && t.poison.contains (el i)
    if u.writesVisible slot.toNat then .error (.wait (.writers 0))
    else if bad ≠ 0 then trapAt .poison bad accumulatorPoison
    else
      match w.put32 act d (fun i => t.elem (el i)) (shape32 w.regs a |>.plain .u) with
      | .error e => .error e
      | .ok w' => .ok (s, w')

/-- The KIND of `ACST`'s type. -/
def acstKind (t : ETy) : BitVec 3 := if t = .f32 then 1 else 2

/-- ACST (R348): takes effect at its place in issue order. -/
def execAcst (d a : Reg) (slot : Slot) (s : State) : Host.Outcome State Fault Refusal :=
  issuePair (.acst d a slot) s (fun w => require (setInt32 (wmET w.wm) || wmET w.wm == .f32) .illegalType) leads someLane (selPrep a)
    fun _ s w =>
      let who := s.whoOf s.cur w
      let kind := acstKind (wmET w.wm)
      let held := (s.unit (pairOf who.core)).kinds.visible slot.toNat
      if held ≠ 0 ∧ held ≠ kind then trapE .illegalOperand
      else .ok (s.issueMx w who false
        (.acst slot kind ((lanesOf (activeMask w)).map fun i => (selElem (lane w.regs a i), lane w.regs d i))))

/-! ### ACDRAIN (R349 to R351) -/

/-- Types a drain converts to (R351). -/
def drainType (t : ETy) : Bool := t.isInt32 || t == .f16 || t == .bf16 || t == .f32 || narrowFloat t

/-- Rows and columns a drain writes (R350). -/
def drainDims (r : Line) (row0 col0 : Nat) : Nat × Nat := (Nat.min 64 (shExtent r 0 - row0), Nat.min 128 (shExtent r 1 - col0))

/-- Address of the first byte that row `n` of a drain writes. -/
def drainRow (r : Line) (row0 col0 n : Nat) : DWord :=
  BitVec.ofNat 64 (shBase r + (row0 + n) * shStride r + col0 * (shType r).bytes)

/-- Check 3 of R351 on the rows from the `n`-th last on. -/
def State.drainRuns (s : State) (who : Who) (r : Line) (row0 col0 rows len : Nat) : Nat → Run Unit
  | 0 => .ok ()
  | n + 1 =>
    match s.runCheck who (drainRow r row0 col0 (rows - (n + 1))) len with
    | .error e => .error e
    | .ok _ => s.drainRuns who r row0 col0 rows len n

/-- Steps 1 to 3 of R351. -/
def drainPrep (a : Pair) (slot : Slot) (s : State) (w : Wave) : Run (State × MxKind) :=
  let who := s.whoOf s.cur w
  let d := (pairLane w.regs a (lowestLane (activeMask w))).toNat
  let row0 := d / 2 ^ 32 % 65536
  let col0 := d / 2 ^ 48
  match s.useRecord w who (d % 65536) with
  | .error e => .error e
  | .ok (s, va, r) =>
    let t := shType r
    if !(shPlain r && drainType t && !shScaled r && !shSparse r && decide (shExtent r 1 * t.bytes ≤ shStride r)) then
      trapAt .shapeAlign 0 va
    else
      match (if shPublish r then s.publishTest who (BitVec.ofNat 64 (shBase r)) (activeMask w) else .ok true) with
      | .error e => .error e
      | .ok pub =>
        let dims := drainDims r row0 col0
        if !pub then trapAt .shapeAlign 0 va
        else if d / 65536 % 65536 ≠ 0 then trapE .illegalOperand
        else
          match (if dims.2 = 0 then .ok () else s.drainRuns who r row0 col0 dims.1 (dims.2 * t.bytes) dims.1) with
          | .error e => .error e
          | .ok _ => .ok (s, .drain slot r row0 col0 w.wm w.rseed)

/-- Step 4 of R351. -/
def drainSlotOk (k : Kinds) (slot : Nat) : Bool :=
  let a := k.visible slot
  let b := if slot < 7 then k.visible (slot + 1) else 0
  a != 4 && (a != 3 || (slot % 2 == 0 && b == 4)) && (b != 4 || a == 3)

/-- The record that an `ACDRAIN` uses. -/
def drainRecords (a : Pair) (w : Wave) : List Nat :=
  if someLane w then [(pairLane w.regs a (lowestLane (activeMask w))).toNat % 65536] else []

/-- ACDRAIN (R350). -/
def execAcdrain (a : Pair) (slot : Slot) (s : State) : Host.Outcome State Fault Refusal :=
  issuePair (.acdrain a slot) (s.pairRecords (drainRecords a)) anyTypes leads someLane (drainPrep a slot) fun x s w =>
    let who := s.whoOf s.cur w
    if drainSlotOk (s.unit (pairOf who.core)).kinds slot.toNat then .ok (s.issueMx w who true x) else trapE .illegalOperand

/-! ### SACC, CBLOAD, MXREDX, RCFENCE (R352 to R355) -/

/-- SACC (R352). -/
def execSacc (sd : Slot) (a : Reg) (ss : Slot) (s : State) : Host.Outcome State Fault Refusal :=
  issuePair (.sacc sd a ss) s anyTypes leads someLane noPrep fun _ s w =>
    let who := s.whoOf s.cur w
    let u := s.unit (pairOf who.core)
    let k := u.kinds
    let plain (x : BitVec 3) : Bool := x == 0 || x == 1
    if !plain (k.working sd.toNat) ∨ !plain (k.visible ss.toNat) then trapE .illegalOperand
    else if u.writesVisible ss.toNat then .error (.wait (.writers 0))
    else if nonEmpty (slotOf u.visible ss.toNat).poison then trapAt .poison 0 accumulatorPoison
    else .ok (s.issueMx w who true (.sacc sd ss (lane w.regs a (lowestLane (activeMask w)))))

/-- The 32 bytes of `CBLOAD`, by a relaxed load of the wave (R353). -/
def cbloadPrep (a : Pair) (s : State) (w : Wave) : Run (State × List Byte) :=
  let who := s.whoOf s.cur w
  let va := pairLane w.regs a (lowestLane (activeMask w))
  match s.oneAccess w who .read true false 32 va 32 with
  | .error e => .error e
  | .ok l => .ok (s, s.readOne w l)

/-- CBLOAD (R353). -/
def execCbload (a : Pair) (cb : BitVec 2) (s : State) : Host.Outcome State Fault Refusal :=
  issuePair (.cbload a cb) s anyTypes leads someLane (cbloadPrep a) fun bs s w =>
    .ok (s.issueMx w (s.whoOf s.cur w) false
      (.cbload cb ((Vector.replicate 16 0).mapIdx fun x _ => BitVec.ofNat 16 (leNat ((bs.drop (2 * x)).take 2)))))

/-- The control word of `MXREDX` (R354), once the driver has accepted the feature (R453). -/
def redxPrep (slot : Slot) (a : Reg) (s : State) (w : Wave) : Run (State × MxKind) :=
  let c := (lane w.regs a (lowestLane (activeMask w))).toNat
  let core := c % 256
  if !s.accepted 2 ∨ core % 2 = 1 ∨ 222 < core ∨ c / 2048 % 32 ≠ 0 then trapE .illegalOperand
  else .ok (s, .redx slot core (BitVec.ofNat 3 (c / 256)) (BitVec.ofNat 16 (c / 65536)))

/-- MXREDX (R354). -/
def execMxredx (slot : Slot) (a : Reg) (s : State) : Host.Outcome State Fault Refusal :=
  issuePair (.mxredx slot a) s anyTypes leads someLane (redxPrep slot a) fun x s w =>
    let who := s.whoOf s.cur w
    let held := (s.unit (pairOf who.core)).kinds.visible slot.toNat
    if held ≠ 0 ∧ held ≠ 2 then trapE .illegalOperand else .ok (s.issueMx w who true x)

/-- RCFENCE (R355): clears every record-cache entry of the block, after the wave's open uses of records. -/
def execRcfence (s : State) : Host.Outcome State Fault Refusal :=
  issuePair .rcfence s anyTypes leads everyLane noPrep fun _ s w =>
    .ok (s.onBlock w.block fun b => { b with records := [] }, w)

end Sys2Proof.Machine
end

