-- ==== Sys2Proof/Machine/Bolter.lean ====
section
/-! DEFINITION. The threshold instructions as they issue (R356 to R359) and signed projections (R360). -/

namespace Sys2Proof.Machine

/-! ### TALOAD (R356, R357) -/

/-- Bytes of a threshold-tile image (R356). -/
def tileImage : Nat := 65664

/-- The header checks of R357. -/
def taloadPrep (a : Pair) (mode : BitVec 1) (s : State) (w : Wave) : Run (State × MxKind) :=
  let who := s.whoOf s.cur w
  let va := pairLane w.regs a (lowestLane (activeMask w))
  if va.toNat % 64 ≠ 0 then trapAt .align 0 va
  else
    match s.runCheck who va tileImage with
    | .error e => .error e
    | .ok _ =>
      match s.oneAccess w who .read false false 32 va 64 with
      | .error e => .error e
      | .ok l =>
        let h := lineOf (s.readOne w l)
        let ty := lineField h 0 1
        if (ty = 2 ∨ ty = 9 ∨ ty = 10) ∧ lineField h 1 1 = mode.toNat ∧ lineField h 2 62 = 0 then
          .ok (s, .taload va (ETy.ofCode (BitVec.ofNat 4 ty)) mode)
        else trapAt .illegalOperand 0 va

/-- TALOAD (R357). -/
def execTaload (a : Pair) (mode : BitVec 1) (s : State) : Host.Outcome State Fault Refusal :=
  issuePair (.taload a mode) s anyTypes leads someLane (taloadPrep a mode) fun x s w => .ok (s.issueMx w (s.whoOf s.cur w) true x)

/-! ### TAEVAL (R358) -/

/-- Nodes of a tree (R332). -/
def tileNodes (mode : BitVec 1) : Nat := if mode = 1 then 64 else 32
/-- Trees of a tile (R332). -/
def tileTrees (mode : BitVec 1) : Nat := if mode = 1 then 64 else 128
/-- The features the map names. -/
def TilePlane.features (t : TilePlane) : List Nat :=
  distinct ((List.range (tileNodes t.mode)).map fun n => (t.map[n]?.getD 0).toNat)

/-- A `TALOAD` of the unit has not been applied: the map and type are not known yet. -/
def MatrixUnit.loadingTile (u : MatrixUnit) : Bool :=
  u.ops.any fun o => match o.kind with
    | .taload _ _ _ => true
    | _ => false

/-- Step 2 of R340 for `TAEVAL`: the descriptor and the count. -/
def taevalPrep (a : Pair) (b : Reg) (s : State) (w : Wave) : Run (State × Unit) :=
  let who := s.whoOf s.cur w
  let j := lowestLane (activeMask w)
  let d := (pairLane w.regs a j).toNat
  if 64 < (lane w.regs b j).toNat ∨ d / 2 ^ 49 ≠ 0 then trapE .illegalOperand
  else if d / 2 ^ 48 % 2 = 1 ∧ !((s.block who.block).map Block.paired).getD false then
    trapAt .scratchBounds 0 (BitVec.ofNat 64 (d % 2 ^ 32))
  else .ok (s, ())

/-- TAEVAL (R358): the checks after ownership, in order, then the issue. -/
def taevalEffect (slot : Slot) (a : Pair) (b : Reg) (s : State) (w : Wave) : Run (State × Wave) :=
  let who := s.whoOf s.cur w
  let j := lowestLane (activeMask w)
  let d := (pairLane w.regs a j).toNat
  let n := (lane w.regs b j).toNat
  let off := d % 2 ^ 32
  let stride := d / 2 ^ 32 % 65536
  let core := 2 * pairOf who.core + d / 2 ^ 48 % 2
  let u := s.unit (pairOf who.core)
  let size := u.tile.ty.bytes
  match (s.block who.block).bind fun x => (x.half core).map fun h => (h.base, x.scratch) with
  | none => trapAt .scratchBounds 0 (BitVec.ofNat 64 off)
  | some (base, len) =>
    let reads := (List.range n).flatMap fun q => u.tile.features.map fun f => off + q * stride + f * size
    let kind := u.kinds.working slot.toNat
    if u.loadingTile then .error (.wait (.writers 0))
    else if off % size ≠ 0 ∨ stride % size ≠ 0 then trapAt .align 0 (BitVec.ofNat 64 off)
    else match reads.find? fun o => decide (len < o + size) with
      | some o => trapAt .scratchBounds 0 (BitVec.ofNat 64 o)
      | none =>
        if kind ≠ 0 ∧ kind ≠ 5 then trapE .illegalOperand
        else .ok (s.issueMx w who true (.taeval slot (scratchKey core (base + off)) stride n))

/-- TAEVAL (R358). -/
def execTaeval (slot : Slot) (a : Pair) (b : Reg) (s : State) : Host.Outcome State Fault Refusal :=
  issuePair (.taeval slot a b) s anyTypes leads someLane (taevalPrep a b) fun _ => taevalEffect slot a b

/-! ### LEAFGATHER (R359) -/

/-- T of the control word. -/
def leafTrees (c : Nat) : Nat := c % 256
/-- SLOT of the control word. -/
def leafSlot (c : Nat) : Nat := c / 256 % 8
/-- ROW0 of the control word. -/
def leafRow (c : Nat) : Nat := c / 65536 % 64

/-- The checks of R359 on the control word, the rows and the table's address. -/
def leafPrep (a : Pair) (b : Reg) (s : State) (w : Wave) : Run (State × Nat) :=
  let act := activeMask w
  let j := lowestLane act
  let c := (lane w.regs b j).toNat
  let va := pairLane w.regs a j
  let far := maskOf fun i => act.getLsbD i && decide (63 < leafRow c + i)
  if 128 < leafTrees c ∨ c / 2048 % 32 ≠ 0 ∨ c / 2 ^ 22 ≠ 0 then trapE .illegalOperand
  else if far ≠ 0 then trapAt .illegalOperand far 0
  else if va.toNat % 4 ≠ 0 then trapAt .align 0 va
  else .ok (s, c)

/-- Sum of the leaf values, one rounded addition each (R359). -/
def leafSum (x : Nat) : List Nat → Nat
  | [] => x
  | y :: t => leafSum (ETy.f32.fmt.round 0 0 (sumF 0 [ETy.f32.fmt.decode x, ETy.f32.fmt.decode y])) t

/-- LEAFGATHER (R359) after ownership. -/
def leafEffect (d : Reg) (a : Pair) (c : Nat) (s : State) (w : Wave) : Run (State × Wave) :=
  let act := activeMask w
  let who := s.whoOf s.cur w
  let va := pairLane w.regs a (lowestLane act)
  let u := s.unit (pairOf who.core)
  let t := slotOf u.visible (leafSlot c)
  let cells (i : Nat) : List (Nat × Nat) := (List.range (leafTrees c)).map fun k => (k, (leafRow c + i) * 128 + k)
  let bad := maskOf fun i => act.getLsbD i && (cells i).any fun k => t.poison.contains k.2
  if t.kind ≠ 0 ∧ t.kind ≠ 5 then trapE .illegalOperand
  else if u.writesVisible (leafSlot c) then .error (.wait (.writers 0))
  else if bad ≠ 0 then trapAt .poison bad accumulatorPoison
  else
    let reads := (lanesOf act).flatMap fun i => ((cells i).filter fun k => t.elem k.2 != 64).map fun k =>
      let at_ := va + BitVec.ofNat 64 ((64 * k.1 + (t.elem k.2).toNat) * 4)
      { lane := i, va := at_, spans := s.check who .read false at_ 4 : LaneAccess }
    match s.admitLanes w .read false reads with
    | .error e => .error e
    | .ok l =>
      let value (i : Nat) : Nat :=
        leafSum (lane w.regs d i).toNat ((l.filter fun x => x.lane == i).map fun x => leNat (s.laneBytes w x))
      let vals := (lanesOf act).map fun i => (i, BitVec.ofNat 32 (value i))
      match w.put32 act d (fun i => (Assoc.find vals i).getD 0) .g with
      | .error e => .error e
      | .ok w' => .ok (s.countBytes who (4 * l.length) 0 0, w')

/-- LEAFGATHER (R359). -/
def execLeafgather (d : Reg) (a : Pair) (b : Reg) (s : State) : Host.Outcome State Fault Refusal :=
  issuePair (.leafgather d a b) s (fun w => require (wmET w.wm == .f32) .illegalType) leads someLane (leafPrep a b) (leafEffect d a)

/-! ### SGNPROJ (R360) -/

/-- The sign ρ of projection `p`, dimension `k`: true for −1. -/
def projSign (seed : Word) (p k : Nat) : Bool :=
  let g := seed ^^^ BitVec.ofNat 32 (p * 4096 + k)
  let g := lfsr (if g = 0 then 1 else g)
  decide (((List.range 16).filter fun i => g.getLsbD i).length % 2 = 1)

/-- The code of a vector: bit p is set where its signed sum is above zero. -/
def projCode (t : ETy) (seed : Word) (p : Nat) (x : List Nat) : Word :=
  maskOf fun n => decide (n < p) && match sumF 0 (x.zipIdx.map fun v =>
      let y := t.fmt.decode v.1
      if projSign seed n v.2 then negF y else y) with
    | .inf neg => !neg
    | .real neg _ _ _ => !neg
    | _ => false

/-- SGNPROJ (R360, R361). -/
def sgnprojBody (d : Reg) (a : Pair) (b : Reg) (s : State) (w : Wave) : Run (State × Wave) :=
  let t := wmET w.wm
  let act := activeMask w
  let who := s.whoOf s.cur w
  let j := lowestLane act
  let c := (lane w.regs d j).toNat
  let p := c % 64
  let n := c / 256 % 4096
  let va (i : Nat) : DWord := pairLane w.regs a i
  if !setTxt t then trapE .illegalType
  else if act = 0 then .ok (s, w)
  else if p = 0 ∨ 32 < p ∨ c / 64 % 4 ≠ 0 ∨ n = 0 ∨ c / 2 ^ 20 ≠ 0 then trapE .illegalOperand
  else
    let reads := (lanesOf act).flatMap fun i => (List.range n).map fun k =>
      let at_ := va i + BitVec.ofNat 64 (k * t.bytes)
      { lane := i, va := at_, spans := s.check who .read true at_ t.bytes : LaneAccess }
    match s.admitLanes w .read false reads with
    | .error e => .error e
    | .ok l =>
      let code (i : Nat) : Word :=
        projCode t (lane w.regs b j) p ((l.filter fun x => x.lane == i).map fun x => leNat (s.laneBytes w x))
      let vals := (lanesOf act).map fun i => (i, code i)
      match w.put32 act d (fun i => (Assoc.find vals i).getD 0) (if shape64 w.regs a = .u then .u else .g) with
      | .error e => .error e
      | .ok w' => .ok (s.countBytes who (l.length * t.bytes) 0 0, w')

/-- SGNPROJ (R360). -/
def execSgnproj (d : Reg) (a : Pair) (b : Reg) (s : State) : Host.Outcome State Fault Refusal :=
  issue (.sgnproj d a b) s (sgnprojBody d a b)

end Sys2Proof.Machine
end

