-- ==== Sys2Proof/Machine/Float.lean ====
section
/-! DEFINITION. Float instructions, conversion and packing (R121 to R131). -/

namespace Sys2Proof.Machine

/-! ### Arithmetic (R122, R124) -/

/-- FADD (R122). -/
def execFadd (d a b : Reg) (s : State) : Host.Outcome State Fault Refusal :=
  issueOwn (.fadd d a b) s fun w => w.fltOp d [a, b] fun t n => sumF (wmRM w.wm) [w.fltLane t a n, w.fltLane t b n]
/-- FSUB (R122). -/
def execFsub (d a b : Reg) (s : State) : Host.Outcome State Fault Refusal :=
  issueOwn (.fsub d a b) s fun w => w.fltOp d [a, b] fun t n => sumF (wmRM w.wm) [w.fltLane t a n, negF (w.fltLane t b n)]
/-- FMUL (R122). -/
def execFmul (d a b : Reg) (s : State) : Host.Outcome State Fault Refusal :=
  issueOwn (.fmul d a b) s fun w => w.fltOp d [a, b] fun t n => (mulF (w.fltLane t a n) (w.fltLane t b n)).exact
/-- FMA (R122): vd is the addend. -/
def execFma (d a b : Reg) (s : State) : Host.Outcome State Fault Refusal :=
  issueOwn (.fma d a b) s fun w => w.fltOp d [d, a, b] fun t n =>
    sumF (wmRM w.wm) [mulF (w.fltLane t a n) (w.fltLane t b n), w.fltLane t d n]
/-- FDIV (R122). -/
def execFdiv (d a b : Reg) (s : State) : Host.Outcome State Fault Refusal :=
  issueOwn (.fdiv d a b) s fun w => w.fltOp d [a, b] fun t n => divF (w.fltLane t a n) (w.fltLane t b n)
/-- FRCP (R124). -/
def execFrcp (d a : Reg) (s : State) : Host.Outcome State Fault Refusal :=
  issueOwn (.frcp d a) s fun w => w.fltOp d [a] fun t n => rcpF (w.fltLane t a n)
/-- FRSQ (R124). -/
def execFrsq (d a : Reg) (s : State) : Host.Outcome State Fault Refusal :=
  issueOwn (.frsq d a) s fun w => w.fltOp d [a] fun t n => rsqF (w.fltLane t a n)
/-- FSQRT (R124). -/
def execFsqrt (d a : Reg) (s : State) : Host.Outcome State Fault Refusal :=
  issueOwn (.fsqrt d a) s fun w => w.fltOp d [a] fun t n => sqrtF (w.fltLane t a n)
/-- FRND (R126). -/
def execFrnd (d a : Reg) (s : State) : Host.Outcome State Fault Refusal :=
  issueOwn (.frnd d a) s fun w =>
    let t := wmET w.wm
    match accept setFlt t [d, a] with
    | .error e => .error e
    | .ok _ => w.putRounded t d
        (fun rand n => BitVec.ofNat 64 (t.fmt.round 0 0 (integralF (wmRM w.wm) rand (w.fltLane t a n)))) (allU [w.shapeOf a])

/-! ### Extremes and signs (R123) -/

/-- FMIN (R123). -/
def execFmin (d a b : Reg) (s : State) : Host.Outcome State Fault Refusal :=
  issueOwn (.fmin d a b) s fun w => w.fltPlain setFlt d [a, b] fun t n =>
    (extreme false t (laneT w.regs t a n) (laneT w.regs t b n)).toNat
/-- FMAX (R123). -/
def execFmax (d a b : Reg) (s : State) : Host.Outcome State Fault Refusal :=
  issueOwn (.fmax d a b) s fun w => w.fltPlain setFlt d [a, b] fun t n =>
    (extreme true t (laneT w.regs t a n) (laneT w.regs t b n)).toNat

/-- A pattern with the sign `f` gives; a NaN gives `Canon` (R123). -/
def withSign (f : Bool → Bool) (t : ETy) (x : DWord) : Nat :=
  let p := t.pattern x
  let top := 2 ^ (t.width - 1)
  if t.fmt.decode p = .nan then t.fmt.canon else p % top + (if f (decide (top ≤ p)) then top else 0)

/-- FABS (R123). -/
def execFabs (d a : Reg) (s : State) : Host.Outcome State Fault Refusal :=
  issueOwn (.fabs d a) s fun w => w.fltPlain setFlt d [a] fun t n => withSign (fun _ => false) t (laneT w.regs t a n)
/-- FNEG (R123). -/
def execFneg (d a : Reg) (s : State) : Host.Outcome State Fault Refusal :=
  issueOwn (.fneg d a) s fun w => w.fltPlain setFlt d [a] fun t n => withSign (fun x => !x) t (laneT w.regs t a n)

/-! ### Transcendentals (R125): rounded to nearest-even whatever `WM.RM` -/

/-- FEXP2 (R125). -/
def execFexp2 (d a : Reg) (s : State) : Host.Outcome State Fault Refusal :=
  issueOwn (.fexp2 d a) s fun w => w.fltPlain setTxt d [a] fun t n => t.fmt.round 0 0 (exp2F (w.fltLane t a n))
/-- FLOG2 (R125). -/
def execFlog2 (d a : Reg) (s : State) : Host.Outcome State Fault Refusal :=
  issueOwn (.flog2 d a) s fun w => w.fltPlain setTxt d [a] fun t n => t.fmt.round 0 0 (log2F (w.fltLane t a n))
/-- FSINPI (R125). -/
def execFsinpi (d a : Reg) (s : State) : Host.Outcome State Fault Refusal :=
  issueOwn (.fsinpi d a) s fun w => w.fltPlain setTxt d [a] fun t n => t.fmt.round 0 0 (sinpiF (w.fltLane t a n))
/-- FCOSPI (R125). -/
def execFcospi (d a : Reg) (s : State) : Host.Outcome State Fault Refusal :=
  issueOwn (.fcospi d a) s fun w => w.fltPlain setTxt d [a] fun t n => t.fmt.round 0 0 (cospiF (w.fltLane t a n))

/-! ### Classes (R127) -/

/-- The class bit of R127. -/
def classBit (t : ETy) (p : Nat) : Nat :=
  match t.fmt.decode p with
  | .nan => if t.fmt.signalling p then 8 else 9
  | .inf n => if n then 0 else 7
  | .num n m _ =>
    if m = 0 then (if n then 3 else 4)
    else if m < 2 ^ t.fmt.mbits then (if n then 2 else 5)
    else (if n then 1 else 6)

/-- FCLASS (R127). -/
def execFclass (d a : Reg) (s : State) : Host.Outcome State Fault Refusal :=
  issueOwn (.fclass d a) s fun w => w.fltPlain setFlt d [a] fun t n => 2 ^ classBit t (t.pattern (laneT w.regs t a n))

/-! ### FDOT2 (R128) -/

/-- Half `k` of a lane. -/
def halfOf (x : Word) (k : Nat) : Nat := x.toNat / 2 ^ (16 * k) % 65536

/-- FDOT2 (R128). -/
def execFdot2 (d a b : Reg) (s : State) : Host.Outcome State Fault Refusal :=
  issueOwn (.fdot2 d a b) s fun w =>
    let st := wmST w.wm
    if wmET w.wm ≠ .f32 ∨ (st ≠ .f16 ∧ st ≠ .bf16) then trapE .illegalType
    else
      let el (r : Reg) (n k : Nat) : FVal := st.fmt.decode (halfOf (lane w.regs r n) k)
      w.putRounded .f32 d (fun rand n => BitVec.ofNat 64 (ETy.f32.fmt.round (wmRM w.wm) rand
          (sumF (wmRM w.wm) [w.fltLane .f32 d n, mulF (el a n 0) (el b n 0), mulF (el a n 1) (el b n 1)])))
        (allU ([d, a, b].map fun r => shape32 w.regs r))

/-! ### CVT (R129) -/

/-- An integer as an exact real. -/
def ofInt (x : Int) : Exact := if x = 0 then .zero false else .real (decide (x < 0)) x.natAbs 1 0

/-- Round to a float target with the overflow rules of R129 and R121. -/
def roundTarget (t : ETy) (rm : BitVec 3) (rand : Nat) (sat : Bool) (x : Exact) : Nat :=
  let m := t.fmt
  let beyond (n : Bool) : Nat := if sat then m.signPat n + m.maxPat else if m.infs then m.signPat n + m.infPat else m.canon
  if !narrowFloat t then m.round rm rand x
  else match x with
    | .inf n => beyond n
    | .real n num den exp =>
      let p := m.roundMag rm rand n num den exp
      if m.maxPat < p then beyond n else m.signPat n + p
    | _ => m.round rm rand x

/-- A real rounded to an integer by mode and clamped to the type (R129). -/
def toInteger (t : ETy) (rm : BitVec 3) (rand : Nat) (x : FVal) : DWord :=
  match integralF rm rand x with
  | .nan => 0
  | .inf n => t.wrap (if n then t.least else t.most)
  | .zero _ => 0
  | .real n num _ _ => t.wrap (t.clamp (signed n num))

/-- One lane of `CVT` (R129). -/
def convert (st et : ETy) (wm : Word) (rand : Nat) (x : DWord) : DWord :=
  if anyFloat st then
    let v := st.fmt.decode (st.pattern x)
    if anyFloat et then BitVec.ofNat 64 (roundTarget et (wmRM wm) rand (wmSAT wm) v.exact)
    else toInteger et (wmRM wm) rand v
  else if anyFloat et then BitVec.ofNat 64 (roundTarget et (wmRM wm) rand (wmSAT wm) (ofInt (st.value x)))
  else et.fit (wmSAT wm) (st.value x)

/-- The pairs of types R129 refuses. -/
def cvtAccepts (st et : ETy) : Bool :=
  setAnyw st && setAnyw et && !(st == .cb4 && anyFloat et) && !(et == .cb4 && anyFloat st)

/-- CVT (R129). -/
def execCvt (d a : Reg) (s : State) : Host.Outcome State Fault Refusal :=
  issueOwn (.cvt d a) s fun w =>
    let et := wmET w.wm
    let st := wmST w.wm
    if (setAnyw et ∧ !widened et d) ∨ (setAnyw st ∧ !widened st a) then trapE .illegalOperand
    else if !cvtAccepts st et then trapE .illegalType
    else
      let f (rand n : Nat) : DWord := convert st et w.wm rand (laneT w.regs st a n)
      if anyFloat st ∨ anyFloat et then w.putRounded et d f (allU [shapeT w.regs st a])
      else w.put (activeMask w) et d (f 0) (allU [shapeT w.regs st a])

/-! ### PACK and UNPK (R130) -/

/-- A 16-bit type of `PACK` and `UNPK`. -/
def packHalf (t : ETy) : Bool := t.width == 16
/-- An 8-bit type of `PACK` and `UNPK`. -/
def packByte (t : ETy) : Bool := t.width == 8

/-- PACK (R130). -/
def execPack (d a b : Reg) (s : State) : Host.Outcome State Fault Refusal :=
  issueOwn (.pack d a b) s fun w =>
    let t := wmET w.wm
    let x (n : Nat) : Word :=
      let a := lane w.regs a n
      let b := lane w.regs b n
      if packHalf t then b.extractLsb' 0 16 ++ a.extractLsb' 0 16
      else b.extractLsb' 0 8 ++ a.extractLsb' 0 8 ++ (lane w.regs d n).extractLsb' 16 16
    if !packHalf t ∧ !packByte t then trapE .illegalType
    else w.put32 (activeMask w) d x (allU ((if packHalf t then [a, b] else [d, a, b]).map fun r => shape32 w.regs r))

/-- UNPK (R130); a `sel` that a 16-bit type does not have is refused whatever the lanes (R81, assumption 62). -/
def execUnpk (d a : Reg) (sel : BitVec 2) (s : State) : Host.Outcome State Fault Refusal :=
  issueOwn (.unpk d a sel) s fun w =>
    let t := wmET w.wm
    if !packHalf t ∧ !packByte t then trapE .illegalType
    else if packHalf t ∧ 2 ≤ sel.toNat then trapE .illegalOperand
    else w.put32 (activeMask w) d
      (fun n => loWord (t.wrap (t.value (zext64 (lane w.regs a n >>> (sel.toNat * t.width)))))) (allU [shape32 w.regs a])

end Sys2Proof.Machine
end

