-- ==== Sys2Proof/Machine/MxImage.lean ====
section
/-! DEFINITION. The engines' save areas (R209, R219) and the matrix unit's image in them (R311, R338, R339). -/

namespace Sys2Proof.Machine

/-! ### Save areas -/

/-- SAVEBASE of a context. -/
def State.saveBase (s : State) (pav ctx : Nat) : Nat := s.ctxField pav ctx 128 8

/-- Store an engine's image in a context's save areas; a context whose area faults is terminated, as R209 states of a
wave's. -/
def State.saveArea' (s : State) (core pav ctx va : Nat) (bs : List Byte) : State :=
  match s.storeVa { core := core, pav := pav, ctx := ctx, block := s.fresh, uid := s.fresh } va bs with
  | some s' => s'
  | none => s.terminate pav ctx 0 0

/-- The context of a block. -/
def State.ctxOf (s : State) (b : Nat) : Nat := ((s.block b).map Block.ctx).getD 0
/-- The block slot of a block on a core (R39). -/
def State.blockSlotOf (s : State) (b core : Nat) : Nat := (((s.block b).bind fun x => x.half core).map Half.blockSlot).getD 0

/-! ### The matrix save area (R338) -/

/-- The state of a slot as R311 lays it out. -/
def TileSlot.stateWord (t : TileSlot) : Nat :=
  t.kind.toNat + (if t.evalid then 8 else 0) + (if t.alignLoss then 16 else 0) + (if t.sat then 32 else 0)
    + (if t.poison.isEmpty then 0 else 64) + t.e.toNat * 65536

/-- A bank's elements of one core of the pair: the leader's half is 0. -/
def bankImage (b : Bank) (half : Nat) : List Byte :=
  b.toList.flatMap fun t => (List.range 4096).flatMap fun i => leBytes (t.elem (i / 64 * 128 + i % 64 + 64 * half)).toNat 4

/-- The cell of row `n`, column `j` of one core (R332). -/
def TilePlane.cellAt (t : TilePlane) (half n j : Nat) : BitVec 98 :=
  let key := if t.mode = 1 then j * 64 + n + 32 * half else (j + 64 * half) * 64 + n
  (Assoc.find t.cells key).getD 0

/-- The 4 KiB of state of R338. The places of the block slot, the mode and the threshold type at + 0x100 are the model's
(DESIGN CHOICE, assumption 22). -/
def State.unitState (s : State) (u : MatrixUnit) (core : Nat) (blocks : List (Nat × Block)) : List Byte :=
  let slots (b : Bank) : List Byte := b.toList.flatMap fun t => leBytes t.stateWord 4
  let counts : List Byte := (List.range 32).flatMap fun k =>
    leBytes (((blocks.find? fun b => (b.2.half core).map Half.blockSlot == some k).map fun b => b.2.records.length).getD 0) 4
  let open_ : List Byte := (List.range 32).flatMap fun k =>
    leBytes (((s.wave (core * 32 + k)).map fun w => if blocks.any fun b => b.1 == w.block then w.openBatch else 0).getD 0) 4
  let owner := match u.owner with | some b => s.blockSlotOf b core | none => 0
  slots u.working ++ slots u.visible
    ++ u.codebooks.toList.flatMap (fun cb => cb.toList.flatMap fun x => leBytes x.toNat 2)
    ++ u.tile.map.toList.flatMap (fun x => leBytes x.toNat 1)
    ++ leBytes u.batchNext.toNat 4 ++ leBytes owner 1 ++ leBytes u.tile.mode.toNat 1 ++ leBytes u.tile.ty.code 1 ++ leBytes 0 249
    ++ counts ++ open_ ++ leBytes 0 3328

/-- The matrix save area of one core. -/
def State.matrixImage (s : State) (u : MatrixUnit) (core : Nat) (blocks : List (Nat × Block)) : List Byte :=
  let half := core % 2
  let recs (k : Nat) : List (Nat × Line) :=
    ((blocks.find? fun b => (b.2.half core).map Half.blockSlot == some k).map fun b => b.2.records).getD []
  bankImage u.working half ++ bankImage u.visible half
    ++ (List.range 32).flatMap (fun n => (List.range 64).flatMap fun j => leBytes (u.tile.cellAt half n j).toNat 16)
    ++ s.unitState u core blocks
    ++ (List.range 32).flatMap (fun k => (List.range 64).flatMap fun e => lineBytes (((recs k)[e]?.map fun r => r.2).getD 0))
    ++ (List.range 32).flatMap (fun k => (List.range 64).flatMap fun e =>
        leBytes (((recs k)[e]?.map fun r => r.1 % 65536 + 2 ^ 31).getD 0) 4)

/-! ### Two logical units on one pair (R339) -/

/-- Write a unit's state to the save areas of its logical pair in its owner's context. -/
def State.storeUnit (s : State) (pair : Nat) : State :=
  let u := s.unit pair
  match u.owner.bind s.block with
  | none => s
  | some b =>
    let here := s.blocks.filter fun x => x.2.pav == b.pav && x.2.ctx == b.ctx
      && ((x.2.half (2 * pair)).isSome || (x.2.half (2 * pair + 1)).isSome)
    [2 * pair, 2 * pair + 1].foldl (fun (t : State) c =>
      t.saveArea' c b.pav b.ctx (s.saveBase b.pav b.ctx + 0x10920000 + c * 0x80000) (s.matrixImage u c here)) s

/-- The pair that hosts a logical pair has its unit loaded; a switch between two units writes the outgoing one's state (R339). The
incoming one's is kept beside it (assumption 68). -/
def State.switchUnit (s : State) (pair : Nat) : State :=
  match s.hostOf pair with
  | none => s
  | some h =>
    let now := (Assoc.find s.loaded h).getD h
    if now = pair then s else { s.storeUnit now with loaded := Assoc.set s.loaded h pair }

end Sys2Proof.Machine
end

