-- ==== Sys2Proof/Machine/MxExec.lean ====
section
/-! DEFINITION. What the matrix unit does with an issued operation (R321 to R325, R334 to R336, R347 to R358), its checker
(R335, R341), reductions (R354), and the grants of ownership (R306). -/

namespace Sys2Proof.Machine

/-! ### Sums (R321 to R325) -/

/-- An exact zero block sum is +0 (R321). -/
def plusZero (x : Exact) : Exact :=
  match x with
  | .zero _ => .zero false
  | y => y

/-- One K-block of R321 on the pattern of an element. -/
def addBlock (acc : Nat) (products : List FVal) : Nat :=
  let s := ETy.f32.fmt.round 0 0 (plusZero (sumF 0 products))
  ETy.f32.fmt.round 0 0 (sumF 0 [ETy.f32.fmt.decode acc, ETy.f32.fmt.decode s])

/-- `x / 2^k` to the nearest integer, ties to even. -/
def rneShift (x : Int) (k : Nat) : Int :=
  let q := x / 2 ^ k
  let r := x % 2 ^ k
  if 2 * r < 2 ^ k ∨ (2 * r = 2 ^ k ∧ q % 2 = 0) then q else q + 1

/-- `x × 2^k` to the nearest integer, ties to even. -/
def rneScale (x : Int) (k : Int) : Int := if 0 ≤ k then x * 2 ^ k.toNat else rneShift x (-k).toNat

/-- The NaN marker of a block-scaled element (R324). -/
def nanMarker : Int := -(2 ^ 63)
/-- The largest magnitude of one. -/
def scaledLimit : Int := 2 ^ 63 - 1

/-- One K-block of R325: the element and whether it saturated; `sc` is sa + sb, none for a NaN block. -/
def addScaled (e : Int) (x : Int × Bool) (sc : Option Int) (products : List FVal) : Int × Bool :=
  let bad := products.any fun p => match p with
    | .num _ _ _ => false
    | _ => true
  if x.1 = nanMarker then x
  else match sc with
    | none => (nanMarker, x.2)
    | some k =>
      if bad then (nanMarker, x.2)
      else
        let sum := sumDyadic (products.filterMap fun p => match p with | .num n m q => some (signed n m, q) | _ => none)
        let y := x.1 + rneScale sum.1 (sum.2 + k - e)
        if scaledLimit < y then (scaledLimit, true) else if y < -scaledLimit then (-scaledLimit, true) else (y, x.2)

/-- The operand values of an operation, row by row of A and column by column of B. -/
structure MxInput where
  a : Array (Array FVal)
  b : Array (Array FVal)

/-- Products of K-block `q` at element (r, c). -/
def MxInput.block (x : MxInput) (q r c : Nat) : List FVal :=
  (List.range 32).map fun u => mulF ((x.a[r]?.getD #[])[32 * q + u]?.getD .nan) ((x.b[c]?.getD #[])[32 * q + u]?.getD .nan)

/-- Read the operands of a float operation (R316). -/
def State.mxInput (s : State) (u : MatrixUnit) (k : Nat) (a b : MxOperand) : MxInput :=
  { a := ((List.range 64).map fun r => ((List.range k).map fun i => u.floatElem a (s.operandElem a false r i)).toArray).toArray,
    b := ((List.range 128).map fun c => ((List.range k).map fun i => u.floatElem b (s.operandElem b true i c)).toArray).toArray }

/-- A float tile after an operation (R321). -/
def floatTile (t : TileSlot) (k : Nat) (x : MxInput) : Assoc Word :=
  tileElems fun n =>
    BitVec.ofNat 32 ((List.range (k / 32)).foldl (fun acc q => addBlock acc (x.block q (n / 128) (n % 128))) (t.elem n).toNat)

/-- An integer tile after an operation (R322). -/
def State.intTile (s : State) (t : TileSlot) (k : Nat) (a b : MxOperand) (sat : Bool) : Assoc Word :=
  let row : Array (Array Int) := ((List.range 64).map fun r =>
    ((List.range k).map fun i => a.ty.value (BitVec.ofNat 64 ((s.operandElem a false r i).getD 0))).toArray).toArray
  let col : Array (Array Int) := ((List.range 128).map fun c =>
    ((List.range k).map fun i => b.ty.value (BitVec.ofNat 64 ((s.operandElem b true i c).getD 0))).toArray).toArray
  let sum (q r c : Nat) : Int := (List.range 32).foldl (fun acc u =>
    acc + (row[r]?.getD #[])[32 * q + u]?.getD 0 * (col[c]?.getD #[])[32 * q + u]?.getD 0) 0
  tileElems fun n => (List.range (k / 32)).foldl (fun (acc : Word) q =>
    loWord (ETy.s32.fit sat (acc.toInt + sum q (n / 128) (n % 128)))) (t.elem n)

/-- A block-scaled tile: its words, E and flags before and after (R324, R325). -/
structure ScaledTile where
  lo : Assoc Word
  hi : Assoc Word
  e : Int
  fixed : Bool
  loss : Bool
  sat : Bool

/-- The largest of some exponents. -/
def maxExp (l : List (Option Int)) : Option Int :=
  l.foldl (fun best x => match best, x with
    | some a, some b => some (if a < b then b else a)
    | none, y => y
    | y, none => y) none

/-- A block-scaled tile after an operation (R324, R325). -/
def State.scaledTile (s : State) (t0 t1 : TileSlot) (k : Nat) (a b : MxOperand) (x : MxInput) : ScaledTile :=
  let nq := k / 32
  let sa : Array (Array (Option Int)) := ((List.range 64).map fun r =>
    ((List.range nq).map fun q => s.scaleExp a false q r).toArray).toArray
  let sb : Array (Array (Option Int)) := ((List.range 128).map fun c =>
    ((List.range nq).map fun q => s.scaleExp b true q c).toArray).toArray
  let ea (q r : Nat) : Option Int := ((sa[r]?.getD #[])[q]?.getD none)
  let eb (q c : Nat) : Option Int := ((sb[c]?.getD #[])[q]?.getD none)
  let sum (x y : Option Int) : Option Int := match x, y with
    | some i, some j => some (i + j)
    | _, _ => none
  let smax := maxExp ((List.range nq).map fun q =>
    sum (maxExp ((List.range 64).map fun r => ea q r)) (maxExp ((List.range 128).map fun c => eb q c)))
  let held := t0.e.toInt
  let e : Int := if t0.evalid then held else match smax with
    | some m => m - 32
    | none => 0
  let products (q r c : Nat) : List FVal := if a.past false q r || b.past true q c then [] else x.block q r c
  let cells : Array (Int × Bool) := ((List.range 8192).map fun n =>
    (List.range nq).foldl (fun acc q => addScaled e acc (sum (ea q (n / 128)) (eb q (n % 128))) (products q (n / 128) (n % 128)))
      ((joinWords (t0.elem n) (t1.elem n)).toInt, false)).toArray
  let word (n : Nat) : DWord := BitVec.ofInt 64 (cells[n]?.getD (0, false)).1
  { lo := tileElems fun n => loWord (word n), hi := tileElems fun n => hiWord (word n), e := e,
    fixed := t0.evalid || smax.isSome,
    loss := t0.evalid && (match smax with | some m => decide (held + 32 < m) | none => false),
    sat := cells.any fun c => c.2 }

/-- Write an operation's result into its slots; `poison` picks the elements its operands poison (R311, R336). -/
def State.runMma (s : State) (u : MatrixUnit) (slot k : Nat) (a b : MxOperand) (sat : Bool) (poison : Nat → Bool) : MatrixUnit :=
  let t := slotOf u.working slot
  match mmaKind a b with
  | 3 =>
    let t1 := slotOf u.working (slot + 1)
    let r := s.scaledTile t t1 k a b (s.mxInput u k a b)
    let mark (t : TileSlot) (kind : BitVec 3) (elems : Assoc Word) : TileSlot :=
      let t := { t with elems := elems, evalid := r.fixed, e := if r.fixed then BitVec.ofInt 16 r.e else t.e,
                        alignLoss := t.alignLoss || r.loss, sat := t.sat || r.sat }
      (t.fixKind kind).poisonIf poison
    { u with working := setSlot (setSlot u.working slot (mark t 3 r.lo)) (slot + 1) (mark t1 4 r.hi) }
  | 2 =>
    let t' : TileSlot := { t with elems := s.intTile t k a b sat }
    { u with working := setSlot u.working slot ((t'.fixKind 2).poisonIf poison) }
  | kind =>
    let t' : TileSlot := { t with elems := floatTile t k (s.mxInput u k a b) }
    { u with working := setSlot u.working slot ((t'.fixKind kind).poisonIf poison) }

/-- Rows of A and columns of B that read poison reach every element of their row or column (R336). -/
def State.mmaPoison (s : State) (k : Nat) (a b : MxOperand) : Nat → Bool :=
  if s.operandClean a && s.operandClean b then fun _ => false
  else
    let rows := (List.range 64).filter fun r => s.operandPoisoned a false k r
    let cols := (List.range 128).filter fun c => s.operandPoisoned b true k c
    fun n => rows.contains (n / 128) || cols.contains (n % 128)

/-! ### The threshold tile (R334, R356, R358) -/

/-- A tile from its image, whose first 64 bytes are not in `bs` (R333, R356). -/
def tileOf (ty : ETy) (mode : BitVec 1) (poisoned : Bool) (bs : List Byte) : TilePlane :=
  let p := tileNodes mode
  let a := bs.toArray
  let byte (o : Nat) : Byte := a[o]?.getD 0
  let cell (t n : Nat) : BitVec 98 :=
    let v := leNat ((List.range 16).map fun i => byte (64 + (t * p + n) * 16 + i))
    let thr := if ty = .f32 then v % 2 ^ 32 else v % 2 ^ 16
    BitVec.ofNat 98 (v / 2 ^ 32 * 2 ^ 32 + thr)
  { ty := ty, mode := mode, poisoned := poisoned,
    map := (Vector.replicate 64 0).mapIdx fun n _ => if n < p then byte n else 0,
    cells := (List.range (tileTrees mode)).flatMap fun t => (List.range p).filterMap fun n =>
      let c := cell t n
      if c = 0 then none else some (t * 64 + n, c) }

/-- A feature is missing (R334). -/
def missing (ty : ETy) (x : Nat) : Bool := if ty.isInt then x == 0xFFFF else ty.fmt.decode x == .nan
/-- A feature is at most a threshold (R334). -/
def atMost (ty : ETy) (x thr : Nat) : Bool :=
  if ty.isInt then decide (x ≤ thr) else match cmpF (ty.fmt.decode x) (ty.fmt.decode thr) with
    | some c => decide (c ≤ 0)
    | none => false

/-- The exit leaf of a tree on the features of a sample (R334). -/
def TilePlane.leaf (t : TilePlane) (feature : Nat → Nat) (tree : Nat) : Nat :=
  let m := (List.range (tileNodes t.mode)).foldl (fun (m : DWord) n =>
    let c := (Assoc.find t.cells (tree * 64 + n)).getD 0
    let x := feature (t.map[n]?.getD 0).toNat
    let fail := if missing t.ty x then c.getLsbD 97 else !atMost t.ty x (c.extractLsb' 0 32).toNat
    if c.getLsbD 96 && fail then m &&& c.extractLsb' 32 64 else m) (~~~0)
  match (List.range 64).find? fun i => m.getLsbD i with
  | some i => i
  | none => 64

/-- Execute a `TAEVAL` (R334, R358). Poisoned samples and a poisoned tile poison what they reach. -/
def State.runTaeval (s : State) (u : MatrixUnit) (slot key stride count : Nat) : MatrixUnit :=
  let t := slotOf u.working slot
  let size := u.tile.ty.bytes
  let at_ (q f : Nat) : Nat := key + q * stride + f * size
  let bad (q : Nat) : Bool := u.tile.poisoned || (nonEmpty s.poisoned && u.tile.features.any fun f => s.keyPoisoned (at_ q f) size)
  let hit (n : Nat) : Bool := decide (n / 128 < count) && decide (n % 128 < tileTrees u.tile.mode)
  let cell (n : Nat) : Word :=
    if hit n then BitVec.ofNat 32 (u.tile.leaf (fun f => s.mem.readLE (at_ (n / 128) f) size) (n % 128)) else t.elem n
  let t' : TileSlot := { t with kind := 5, elems := tileElems cell }
  { u with working := setSlot u.working slot (if (List.range count).any bad then t'.poisonIf fun n => hit n && bad (n / 128) else t') }

/-! ### The other operations -/

/-- A slot after `SACC` (R352). -/
def saccTile (dst src : TileSlot) (scale : Word) : TileSlot :=
  let x := ETy.f32.fmt.decode scale.toNat
  { dst with kind := 1, elems := tileElems fun n => BitVec.ofNat 32 (ETy.f32.fmt.round 0 0
      (sumF 0 [ETy.f32.fmt.decode (dst.elem n).toNat, mulF x (ETy.f32.fmt.decode (src.elem n).toNat)])) }

/-- A slot after `ACST` (R348). -/
def acstTile (t : TileSlot) (kind : BitVec 3) (words : List (Nat × Word)) : TileSlot :=
  (words.foldl (fun (t : TileSlot) x => { t.put x.1 x.2 with poison := dropIf (fun n => n == x.1) t.poison }) t).fixKind kind

/-! ### The tile after a reduction message (R354) -/

/-- One element of a reduction: the element and the flags it sets. -/
def redxElem (shift : Int) (old v : Word) : Word × Bool × Bool :=
  let lossy := decide (shift < 0) && decide (v.toInt % 2 ^ (-shift).toNat ≠ 0)
  let x := old.toInt + rneScale v.toInt shift
  let y := ETy.s32.clamp x
  (BitVec.ofInt 32 y, lossy, decide (x ≠ y))

/-- A slot after a message is applied (R354). -/
def redxTile (t : TileSlot) (m : RedxMsg) : TileSlot :=
  let e := if t.evalid then t.e else m.exp
  let shift := m.exp.toInt - e.toInt
  let cell (n : Nat) : Word × Bool × Bool := redxElem shift (t.elem n) ((Assoc.find m.elems n).getD 0)
  let t' := { t with kind := 2, evalid := true, e := e, elems := tileElems fun n => (cell n).1,
                     alignLoss := t.alignLoss || (List.range 8192).any fun n => (cell n).2.1,
                     sat := t.sat || (List.range 8192).any fun n => (cell n).2.2 }
  if m.poison.isEmpty then t' else t'.poisonIf fun n => m.poison.contains n

/-! ### Writes of working slots, and batches executed again (R335) -/

/-- The working slots that a write leaves; `bad` marks every element that an `MMA` writes as poisoned. -/
def State.workingAfter (s : State) (u : MatrixUnit) (x : MxWrite) (bad : Bool) : Bank :=
  match x with
  | .arrival m => setSlot u.working m.slot.toNat (redxTile (slotOf u.working m.slot.toNat) m)
  | .op o => match o.kind with
    | .mma slot k a b sat => (s.runMma u slot.toNat k a b sat (if bad then fun _ => true else s.mmaPoison k a b)).working
    | .taeval slot key stride count => (s.runTaeval u slot.toNat key stride count).working
    | .zero mask => u.working.mapIdx fun k t => if mask.getLsbD k then ({} : TileSlot) else t
    | .sacc dst src scale =>
      setSlot u.working dst.toNat (saccTile (slotOf u.working dst.toNat) (slotOf u.visible src.toNat) scale)
    | _ => u.working

/-- The working slots that a write names. -/
def MxWrite.slots : MxWrite → BitVec 8
  | .arrival m => 1#8 <<< m.slot.toNat
  | .op o => o.kind.wrote

/-- Note a write before it is made. -/
def MatrixUnit.note (u : MatrixUnit) (x : MxWrite) : MatrixUnit :=
  let new : MxPast := { write := x, working := u.working, visible := u.visible, codebooks := u.codebooks, tile := u.tile,
                        slots := x.slots }
  MatrixUnit.forget { u with past := u.past ++ [new] }

/-- The slots named in a mask from one bank, the others from another. -/
def pickSlots (mask : BitVec 8) (a b : Bank) : Bank := b.mapIdx fun k t => if mask.getLsbD k then slotOf a k else t

/-- The write is that of an `MMA` or `MMAP` of an operation's batch. -/
def MxPast.checkedIn (x : MxPast) (o : MxOp) : Bool :=
  match x.write with
  | .op p => x.inBatch o && p.kind.checked
  | .arrival _ => false

/-- Make writes again, in their order, on the slots named in a mask; the one numbered `again` of the batch's checked ones
mismatches. -/
def State.redoWrites (s : State) (u : MatrixUnit) (o : MxOp) (mask : BitVec 8) (again : Option Nat) : Nat → Bank → List MxPast → Bank
  | _, b, [] => b
  | n, b, x :: t =>
    let v := { u with working := b, visible := x.visible, codebooks := x.codebooks, tile := x.tile }
    let out := s.workingAfter v x.write (x.checkedIn o && again == some n)
    s.redoWrites u o mask again (if x.checkedIn o then n + 1 else n) (pickSlots (x.slots &&& mask) out b) t

/-- Execute an operation's batch again: its slots go back to what the batch's first write found, and every write since then is
made again on them, the operands read again (R316, R335). -/
def State.executeAgain (s : State) (u : MatrixUnit) (o : MxOp) (again : Option Nat) : MatrixUnit :=
  let run := u.past.dropWhile fun x => !x.inBatch o
  let mask := run.foldl (fun m x => if x.inBatch o then m ||| x.slots else m) 0
  let count := (run.filter fun x => x.checkedIn o).length
  let start := pickSlots mask ((run.head?.map MxPast.working).getD u.working) u.working
  { u with working := s.redoWrites u o mask (again.map fun n => Nat.min n (count - 1)) 0 start run,
           past := u.past.map fun x => if x.inBatch o then { x with again := true } else x }

/-! ### The checker (R335) -/

/-- The context of a block, and the core of an operation. -/
def State.opWho (s : State) (o : MxOp) : Who :=
  match s.block o.block with
  | some b => { core := o.core, pav := b.pav, ctx := b.ctx, block := o.block, uid := o.uid }
  | none => { core := o.core, pav := 0, ctx := 0, block := o.block, uid := o.uid }

/-- `MX_CHECK` is owed to the wave that issued an operation; where that wave has ended, or has issued its last instruction, its
context ends (R335). -/
def State.oweCheck (s : State) (o : MxOp) (batch : Word) : State :=
  let who := s.opWho o
  match s.waves.find? fun x => x.2.uid == o.uid with
  | some (k, w) =>
    if w.wait = .ending then s.terminate who.pav who.ctx Cause.mxCheck.code 0
    else s.setWave k { w with mxCheck := some (w.mxCheck.getD batch) }
  | none => s.terminate who.pav who.ctx Cause.mxCheck.code 0

/-- Execute an `MMA` or `MMAP` with the checker's verdict (R335, R341): a mismatch executes its batch again once, and a second
mismatch of the batch poisons what that operation wrote. Every later write to those slots is made again in its order (assumption
67). -/
def State.execMmaOp (s : State) (pair : Nat) (o : MxOp) (check : CheckResult) : State :=
  let u := (s.unit pair).note (.op o)
  let who := s.opWho o
  let record (s : State) (type : Nat) : State := s.addError (dieOf o.core) 4 type o.core who.ctx 0
  let batch := o.batch.getD u.batchNext
  if check = .pass then s.setUnit pair { u with working := s.workingAfter u (.op o) false }
  else if u.past.any fun x => x.inBatch o && x.again then
    (record (s.setUnit pair { u with working := s.workingAfter u (.op o) true }) 6).oweCheck o batch
  else match check with
    | .mismatchTwice n => (record (record (s.setUnit pair (s.executeAgain u o (some n))) 5) 6).oweCheck o batch
    | _ => record (s.setUnit pair (s.executeAgain u o none)) 5

/-! ### Drains (R350) -/

/-- Element `n` of a drained tile, converted to type `t` (R350). -/
def drainElem (lo hi : TileSlot) (t : ETy) (wm seed : Word) (n : Nat) : Nat :=
  let g := seed ^^^ BitVec.ofNat 32 n
  let rand := (lfsr (if g = 0 then 1 else g)).toNat % 65536
  let x := lo.elem n
  let scaled (v : Int) (nan : Bool) : DWord :=
    let y : FVal := if nan then .nan else .num (decide (v < 0)) v.natAbs lo.e.toInt
    if t.isInt then toInteger t (wmRM wm) rand y else BitVec.ofNat 64 (roundTarget t (wmRM wm) rand (wmSAT wm) y.exact)
  (match lo.kind.toNat with
    | 1 => convert .f32 t wm rand (zext64 x)
    | 2 => if lo.evalid then scaled x.toInt false else convert .s32 t wm rand (zext64 x)
    | 3 => let v := (joinWords x (hi.elem n)).toInt
           scaled v (decide (v = nanMarker))
    | 5 => convert .n32 t wm rand (zext64 x)
    | _ => 0).toNat

/-- A run of a drain: address, bytes, and the offsets of its poisoned elements. -/
structure DrainRow where
  va : DWord
  data : List Byte
  poisoned : List Nat

/-- The rows of a drain (R350); one that has no column to write has none (R351). -/
def MatrixUnit.drainRows (u : MatrixUnit) (slot : Nat) (r : Line) (row0 col0 : Nat) (wm seed : Word) : List DrainRow :=
  let lo := slotOf u.visible slot
  let hi := slotOf u.visible (slot + 1)
  let t := shType r
  let dims := drainDims r row0 col0
  (List.range (if dims.2 = 0 then 0 else dims.1)).map fun i =>
    { va := drainRow r row0 col0 i,
      data := (List.range dims.2).flatMap fun c => leBytes (drainElem lo hi t wm seed (i * 128 + c)) t.bytes,
      poisoned := (List.range dims.2).filterMap fun c =>
        if lo.poison.contains (i * 128 + c) || (lo.kind == 3 && hi.poison.contains (i * 128 + c)) then some (c * t.bytes) else none }

/-- The accesses of a drain: every row is translated, and answered where the partner card holds it, before any byte is written
on this card; the bytes of a poisoned element are written as poisoned data (R336, R460). -/
def State.drainPlan (s : State) (who : Who) (answers : List Answer) (rows : List DrainRow) : Run (List EngineAccess) :=
  match rows.zipIdx.mapM fun x => s.engineAccess who answers x.2 .write true x.1.va.toNat x.1.data.length x.1.data x.1.poisoned with
  | .error e => .error e
  | .ok l => (engineAnswers l).map fun _ => l

/-- Change an operation of a unit. -/
def State.onMxOp (s : State) (pair id : Nat) (f : MxOp → MxOp) : State :=
  let u := s.unit pair
  s.setUnit pair { u with ops := u.ops.map fun o => if o.id = id then f o else o }

/-- An operation that cannot go on (R460). -/
def State.stopMxOp (s : State) (pair : Nat) (o : MxOp) (e : Stop) : State :=
  s.engineStop (s.opWho o) (.matrix pair)
    (fun s f g => s.onMxOp pair o.id fun x => { x with fault := f, fabric := g }) e

/-! ### Reduction messages and the head of the order -/

/-- Send a reduction message to the target's leader; the network interfaces count it (R221, R354). -/
def State.sendRedx (s : State) (pair : Nat) (o : MxOp) (slot : Slot) (target : Nat) (tslot : Slot) (exp : BitVec 16) : State :=
  let who := s.opWho o
  let t := slotOf (s.unit pair).visible slot.toNat
  let m : RedxMsg := { pair := pair, op := o.id, pav := who.pav, ctx := who.ctx, slot := tslot, exp := exp, elems := t.elems,
                       poison := t.poison }
  let s := s.setUnit pair { s.unit pair with sent := (s.unit pair).sent ++ [o] }
  let v := s.unit (pairOf target)
  let s := s.setUnit (pairOf target) { v with redx := v.redx ++ [m] }
  let s := s.setCore o.core { s.core o.core with sent := (s.core o.core).sent + 1 }
  s.setCore target { s.core target with recv := (s.core target).recv + 1 }

/-- Execute the operation at the head of a unit's order; none where it waits or its context ended. -/
def State.runMxOp (s : State) (pair : Nat) (o : MxOp) (check : CheckResult) : Run State :=
  let u := s.unit pair
  let who := s.opWho o
  match o.kind with
  | .mma _ _ _ _ _ => .ok (s.execMmaOp pair o check)
  | .drain slot r row0 col0 wm seed =>
    match s.drainPlan who o.answers (u.drainRows slot.toNat r row0 col0 wm seed) with
    | .error e => .error e
    | .ok plan =>
      .ok ((plan.foldl (fun s x => s.engineWrite who.ctxKey x) s).countBytes who 0 (plan.foldl (fun n x => n + x.data.length) 0) 0)
  | .taload va ty mode =>
    match s.engineSpans who o.answers 0 .read false (va.toNat + 64) (tileImage - 64) [] with
    | .error e => .error e
    | .ok l => .ok (s.setUnit pair { u with tile := tileOf ty mode (l.any s.spanPoisoned) (s.homeBytes l) })
  | .cbload cb data => .ok (s.setUnit pair { u with codebooks := u.codebooks.setIfInBounds cb.toNat data })
  | .acst slot kind words =>
    .ok (s.setUnit pair { u with visible := setSlot u.visible slot.toNat (acstTile (slotOf u.visible slot.toNat) kind words) })
  | .taeval _ _ _ _ | .zero _ | .sacc _ _ _ =>
    let v := u.note (.op o)
    .ok (s.setUnit pair { v with working := s.workingAfter v (.op o) false })
  | .redx slot target tslot exp => .ok (s.sendRedx pair o slot target tslot exp)

/-- Apply and retire the operation at the head of a unit's order, where it does not wait. -/
def State.retireHead (s : State) (pair : Nat) (o : MxOp) (check : CheckResult) : State :=
  match s.runMxOp pair o check with
  | .error e => s.stopMxOp pair o e
  | .ok s' =>
    let u := s'.unit pair
    let who := s.opWho o
    let s' := s'.count (2 * pair) who.pav who.ctx 7 (Config.cyclesOf s.steps).toNat
    (s'.setUnit pair { u with ops := dropIf (fun x => x.id == o.id) u.ops }).settleUnit pair

/-- MATRIX_OP_RETIRE (R307, R331, R339, R460): the oldest operation of a unit is applied and retires, unless it waits. -/
def execMatrixOpRetire (pair : Nat) (check : CheckResult) (s : State) : Host.Outcome State Fault Refusal :=
  match (s.unit pair).ops with
  | [] => .next s
  | o :: _ =>
    if o.fault.isSome ∨ o.fabric.isSome then .next s
    else
      let s := s.switchUnit pair
      if (s.unit pair).ops.head? = some o then .next (s.retireHead pair o check) else .next s

/-! ### Reductions (R354) -/

/-- The reducing unit takes the message: it is owned by a block of the sender's context, and the slot holds sums (R354). -/
def State.redxTaken (s : State) (pair : Nat) (m : RedxMsg) : Bool :=
  let u := s.unit pair
  let k := (slotOf u.working m.slot.toNat).kind
  (match u.owner with
    | some b => s.blockIn m.pav m.ctx b
    | none => false) && (k == 0 || k == 2)

/-- The oldest message for a pair is applied, or discarded with an error record. -/
def State.applyRedx (s : State) (pair : Nat) : State :=
  let u := s.unit pair
  match u.redx with
  | [] => s
  | m :: rest =>
    let s' := s.setUnit pair { u with redx := rest }
    let s' := if s.redxTaken pair m then
        let v := (s'.unit pair).note (.arrival m)
        s'.setUnit pair { v with working := s.workingAfter v (.arrival m) false }
      else s'.addError (dieOf (2 * pair)) 3 9 (2 * pair) m.ctx 0
    let v := s'.unit m.pair
    (s'.setUnit m.pair { v with sent := dropIf (fun o => o.id == m.op) v.sent }).settleUnit m.pair

/-- MXREDX_ARRIVAL (R339, R354, R438): a message reaches its pair. -/
def execMxredxArrival (pair : Nat) (s : State) : Host.Outcome State Fault Refusal :=
  if (s.unit pair).redx.isEmpty ∨ (s.core (2 * pair)).halted then .next s else .next ((s.switchUnit pair).applyRedx pair)

/-! ### Ownership and exchange -/

/-- A wave waits for its pair's unit, at the issue point or with a logged operation that is to replay. -/
def wantsUnit (pair k : Nat) (w : Wave) : Bool :=
  w.wait == .owner pair
    || (coreOf k / 2 == pair && w.log.any fun e => decide (e.state = .resolved) && (onMatrix e.instr || issueClass w e.instr == .matrix))

/-- MATRIX_OWNERSHIP_GRANT (R306): a block that waits for a free unit takes it, and its waves go on. -/
def execMatrixOwnershipGrant (pair block : Nat) (s : State) : Host.Outcome State Fault Refusal :=
  let waiting := s.waves.any fun x => x.2.block == block && wantsUnit pair x.1 x.2
  if (s.unit pair).owner.isSome ∨ !waiting then .next s
  else .next ((s.takeUnit pair block).wake block (.owner pair))

/-- ACSWAP_EXCHANGE (R347): a waiting ACSWAP exchanges its slots. -/
def execAcswapExchange (wave : Nat) (s : State) : Host.Outcome State Fault Refusal :=
  s.rerun wave fun r => match r with
    | .writers mask => if mask = 0 then none else some (execAcswap mask)
    | _ => none

end Sys2Proof.Machine
end

