-- ==== Sys2Proof/Machine/Launch.lean ====
section
/-! DEFINITION. The launch instructions (R274 to R276) and the step that ends TLAUNCH's wait (R235). -/

namespace Sys2Proof.Machine

/-! ### Program headers (R234) -/

/-- The header's rules, as `TLAUNCH` and the Millrace check them (R234, R274). -/
def headerOk (h : Line) : Bool :=
  decide (lineField h 0 8 % 4 = 0) && decide (lineField h 0 8 ≠ 0) && decide (lineField h 8 8 % 16 = 0)
    && decide (lineField h 16 1 ≤ 16) && decide (lineField h 17 3 = 0) && decide (lineField h 32 32 = 0)
    && (decide (lineField h 20 4 = 0) || decide (lineField h 24 8 % 64 = 0))

/-! ### TLAUNCH (R274) -/

/-- The half of the wave's block on its core. -/
def State.ownHalf (s : State) (w : Wave) : Option Half := (s.block w.block).bind fun b => b.half (coreOf s.cur)

/-- The checks of R274: the program index. A header in a scratch window is read as any load (R152), so its read may raise
SCRATCH_BOUNDS and WINDOW_CROSS, which the table of R277 does not list (DEDUCED, assumption 79). -/
def State.launchChecks (s : State) (w : Wave) (a : Pair) (b : Reg) : Run Nat :=
  let act := activeMask w
  let who := s.whoOf s.cur w
  let va (i : Nat) : DWord := pairLane w.regs a i
  let p := (lane w.regs b (lowestLane act)).toNat
  let out := maskOf fun i => act.getLsbD i && decide (globalEnd ≤ (va i).toNat)
  if ((s.block w.block).map Block.scratch).getD 0 < 4096 then trapE .illegalOperand
  else if 65536 ≤ p then trapE .illegalOperand
  else if out ≠ 0 then trapAt .accessViolation out (va (lowestLane out))
  else
    match aligned64 act va with
    | .error e => .error e
    | .ok _ =>
      match s.oneAccess w who .read false false 32 (s.recordAddr who p) 64 with
      | .error e => .error e
      | .ok l =>
        if headerOk (lineOf (s.readOne w l)) then .ok p else trapAt .illegalOperand 0 (s.recordAddr who p)

/-- TLAUNCH (R235, R236, R274): waits until the launch FIFO has room for the whole group. -/
def tlaunchBody (d : Reg) (a : Pair) (b : Reg) (s : State) (w : Wave) : Run (State × Wave) :=
  let act := activeMask w
  if act = 0 then .ok (s, w)
  else
    match s.launchChecks w a b with
    | .error e => .error e
    | .ok p =>
      let core := coreOf s.cur
      let lanes := lanesOf act
      let ticket := ((s.ownHalf w).map Half.launched).getD 0 + BitVec.ofNat 32 lanes.length
      match w.put32 w.exec d (fun _ => ticket) .u with
      | .error e => .error e
      | .ok w' =>
        if 256 < (s.core core).fifo.length + lanes.length then .error (.wait (.launchRoom d a b))
        else
          let s := (s.release w.uid true).onBlock w.block fun x => x.onHalf core fun h => { h with launched := ticket }
          let group := lanes.map fun i => { query := pairLane w.regs a i, prog := p, block := w.block : LaunchEntry }
          .ok (s.setCore core { s.core core with fifo := (s.core core).fifo ++ group }, w')

/-- TLAUNCH (R274). -/
def execTlaunch (d : Reg) (a : Pair) (b : Reg) (s : State) : Host.Outcome State Fault Refusal :=
  issue (.tlaunch d a b) s (tlaunchBody d a b)

/-- TLAUNCH_ENQUEUE (R235): a waiting TLAUNCH finds room. -/
def execTlaunchEnqueue (wave : Nat) (s : State) : Host.Outcome State Fault Refusal :=
  s.rerun wave fun r => match r with
    | .launchRoom d a b => some (execTlaunch d a b)
    | _ => none

/-! ### CQPOP and CQWAIT (R275, R276) -/

/-- Memory key of entry `n` of a half's Sluice (R241). -/
def sluiceKey (b : Block) (h : Half) (n : Nat) : Nat := scratchKey h.core (h.base + b.scratch - 4096 + 16 * (n % 256))

/-- Read an entry as the ring's bytes hold it. -/
def State.sluiceEntry (s : State) (b : Block) (h : Half) (n : Nat) : SluiceEntry :=
  let k := sluiceKey b h n
  { tag := BitVec.ofNat 32 (s.devRead k 4), status := s.devRead (k + 4) 4, payload := BitVec.ofNat 64 (s.devRead (k + 8) 8) }

/-- CQPOP (R243, R275): the guard and `EXEC` are not read. -/
def execCqpop (d : Pair) (s : State) : Host.Outcome State Fault Refusal :=
  issue (.cqpop d) s fun s w =>
    match (s.block w.block).bind fun b => (b.half (coreOf s.cur)).map fun h => (b, h) with
    | none => .ok (s, { w with exec := 0 })
    | some (b, h) =>
      let n := Nat.min 32 (h.sluiceTail - h.sluiceHead)
      let act := maskOf fun i => decide (i < n)
      let es := (List.range n).map fun i => s.sluiceEntry b h (h.sluiceHead + i)
      let e (i : Nat) : SluiceEntry := es[i]?.getD ⟨0, 0, 0⟩
      let bad := (List.range n).any fun i => s.poisoned.contains (sluiceKey b h (h.sluiceHead + i) / 64)
      let r := pairReg d
      if n = 0 then .ok (s, { w with exec := 0 })
      else
        match w.commit (fun R => write64 (write32 (write32 R act r (fun i => (e i).tag) .g) act (regAt r 1)
            (fun i => BitVec.ofNat 32 (e i).status) .g) act (d + 1) (fun i => (e i).payload) .g) 0 act with
        | .error x => .error x
        | .ok w' =>
          if bad then trapPoison 0 (BitVec.ofNat 64 (sluiceKey b h h.sluiceHead)) 0
          else
            .ok (s.onBlock w.block fun x => x.onHalf (coreOf s.cur) fun h => { h with sluiceHead := h.sluiceHead + n },
              { w' with exec := act })

/-- CQWAIT (R276, R459). -/
def execCqwait (a : Reg) (s : State) : Host.Outcome State Fault Refusal :=
  issue (.cqwait a) s fun s w =>
    let t := lane w.regs a w.leadLane
    let done := ((s.ownHalf w).map Half.completed).getD 0
    if (done - t).toNat < 2 ^ 31 then .ok (s, w) else .error (.wait .tickets)

end Sys2Proof.Machine
end

