-- ==== Sys2Proof/Machine/Node.lean ====
section
/-! DEFINITION. Nodes as the walkers decode them (R237, R239, R240, R258, R259), and exact arithmetic on the extended reals
for the tests of R260 to R266. -/

namespace Sys2Proof.Machine

/-! ### Node references (R237) -/

/-- CARD. -/
def refCard (r : DWord) : Nat := (r.extractLsb' 56 4).toNat
/-- DEC. -/
def refDec (r : DWord) : Nat := (r.extractLsb' 48 8).toNat
/-- ADDR. -/
def refAddr (r : DWord) : Nat := (r.extractLsb' 0 48).toNat
/-- Well-formed. -/
def refOk (ndec : Nat) (r : DWord) : Bool :=
  decide (r.extractLsb' 60 4 = 0) && decide (refCard r ≤ 1) && decide (refDec r < ndec) && decide (r.extractLsb' 0 6 = 0)
/-- A reference. -/
def mkRef (card dec addr : Nat) : DWord := BitVec.ofNat 64 (card * 2 ^ 56 + dec * 2 ^ 48 + addr)

/-! ### Decoder descriptors (R239) -/

/-- A field word. -/
structure NodeField where
  off : Nat
  width : Nat
  signed : Bool
  kind : Nat
  mbz : Nat
  deriving DecidableEq, Repr

/-- A descriptor, with its first NFIELD field words. -/
structure Decoder where
  size : Nat
  comp : Nat
  count : Nat
  origin : Nat
  exp : Nat
  mbz : Nat
  fields : List NodeField
  deriving DecidableEq, Repr

/-- A field word from its 32 bits. -/
def NodeField.ofNat (x : Nat) : NodeField :=
  { off := x % 2048, width := x / 2048 % 128, signed := x / 2 ^ 18 % 2 == 1, kind := x / 2 ^ 19 % 16, mbz := x / 2 ^ 23 % 512 }

/-- A descriptor from its 80 bytes. -/
def Decoder.ofBytes (bs : List Byte) : Decoder :=
  let n (o k : Nat) : Nat := leNat ((bs.drop o).take k)
  { size := n 0 1, comp := n 1 1, count := n 2 1, origin := n 4 2, exp := n 6 2, mbz := n 3 1 + n 8 8,
    fields := (List.range (Nat.min 16 (n 2 1))).map fun k => NodeField.ofNat (n (16 + 4 * k) 4) }

/-- Bytes of a node (R239). -/
def Decoder.bytes (d : Decoder) : Nat := 64 * 2 ^ d.size

/-! ### A node under its decoder -/

/-- A node and its decoder: the bytes as one number, and NODEREF. -/
structure Node where
  d : Decoder
  bits : Nat
  ref : DWord
  deriving DecidableEq, Repr

/-- Raw field. -/
def Node.raw (n : Node) (f : NodeField) : Nat := n.bits / 2 ^ f.off % 2 ^ f.width

/-- `x` of `w` bits as a signed number. -/
def asSigned (w x : Nat) : Int := if 2 ^ w ≤ 2 * x then (x : Int) - 2 ^ w else x

/-- Address of a RELREF child. -/
def Node.relAddr (n : Node) (f : NodeField) : Int := (refAddr n.ref : Int) + 64 * asSigned f.width (n.raw f)

/-- A REF or RELREF field. -/
def NodeField.isRef (f : NodeField) : Bool := f.kind == 2 || f.kind == 3
/-- A QLO or QHI field. -/
def NodeField.isPlane (f : NodeField) : Bool := f.kind == 4 || f.kind == 5
/-- A KEY or DKEY field. -/
def NodeField.isKey (f : NodeField) : Bool := f.kind == 6 || f.kind == 7
/-- A COUNT field. -/
def NodeField.isCount (f : NodeField) : Bool := f.kind == 8

/-- The rules of R240 on one field. -/
def Node.fieldOk (n : Node) (f : NodeField) : Bool :=
  decide (f.mbz = 0) && decide (f.kind ≤ 8) && decide (1 ≤ f.width) && decide (f.width ≤ 64)
    && decide (f.off + f.width ≤ 8 * n.d.bytes) && (f.kind != 2 || f.width == 64)
    && (f.kind != 1 || f.width == 16 || f.width == 32) && (!f.isPlane || n.d.comp == 1)
    && (f.kind != 3 || (decide (0 ≤ n.relAddr f) && decide (n.relAddr f < 2 ^ 48)))

/-- The rules of R240 on the order of the fields: ascending, apart, a DKEY after a KEY, a COUNT within the entries after
it. -/
def Node.orderOk (n : Node) : Bool → Nat → List NodeField → Bool
  | _, _, [] => true
  | key, at_, f :: t =>
    decide (at_ ≤ f.off) && (f.kind != 7 || key)
      && (!f.isCount || decide (n.raw f ≤ (t.filter fun g => g.isRef || g.isKey).length))
      && n.orderOk (key || f.kind == 6) (f.off + f.width) t

/-- R240. -/
def Node.ok (n : Node) : Bool :=
  decide (n.d.size ≤ 2) && decide (n.d.comp ≤ 2) && decide (n.d.count ≤ 16) && decide (n.d.mbz = 0)
    && (n.d.comp != 1 || (decide (n.d.origin + 12 ≤ n.d.bytes) && decide (n.d.exp + 1 ≤ n.d.bytes)))
    && n.d.fields.all n.fieldOk && n.orderOk false 0 n.d.fields

/-- The entry count n (R258). -/
def Node.entries (n : Node) : Nat :=
  match n.d.fields.find? NodeField.isCount with
  | some f => n.raw f
  | none => (n.d.fields.filter NodeField.isRef).length

/-! ### Extended reals -/

/-- An exact extended real: num / den with den > 0, or an infinity. -/
inductive XR where
  | fin (num : Int) (den : Nat)
  | inf (neg : Bool)
  deriving DecidableEq, Repr

/-- The value of a float operand; none for a NaN. -/
def XR.of (v : FVal) : Option XR :=
  match v with
  | .nan => none
  | .inf n => some (.inf n)
  | .num n m e => let s := scale2 m 1 e; some (.fin (Sys2Proof.Machine.signed n s.1) s.2)

/-- The value of an f32 pattern. -/
def XR.f32 (x : Nat) : Option XR := XR.of (ETy.f32.fmt.decode x)

/-- Round to f32; an exact zero gives +0. -/
def XR.round (x : XR) (rm : BitVec 3) : Nat :=
  match x with
  | .inf n => ETy.f32.fmt.round rm 0 (.inf n)
  | .fin n d => ETy.f32.fmt.round rm 0 (if n = 0 then .zero false else .real (decide (n < 0)) n.natAbs d 0)

/-- Less than. -/
def XR.lt : XR → XR → Bool
  | .fin a b, .fin c d => decide (a * d < c * b)
  | .inf n, .inf k => n && !k
  | .inf n, .fin _ _ => n
  | .fin _ _, .inf n => !n
/-- At most. -/
def XR.le (x y : XR) : Bool := !(y.lt x)
/-- The larger. -/
def XR.max (x y : XR) : XR := if x.lt y then y else x
/-- The smaller. -/
def XR.min (x y : XR) : XR := if y.lt x then y else x
/-- Negation. -/
def XR.neg : XR → XR
  | .fin n d => .fin (-n) d
  | .inf n => .inf (!n)
/-- The value is finite. -/
def XR.finite : XR → Bool
  | .fin _ _ => true
  | .inf _ => false
/-- Sign: -1, 0 or 1. -/
def XR.sign : XR → Int
  | .fin n _ => n.sign
  | .inf n => if n then -1 else 1
/-- Sum of finite values. -/
def XR.add : XR → XR → XR
  | .fin a b, .fin c d => .fin (a * d + c * b) (b * d)
  | x, _ => x
/-- Difference of finite values. -/
def XR.sub (x y : XR) : XR := x.add y.neg
/-- Product of finite values. -/
def XR.mul : XR → XR → XR
  | .fin a b, .fin c d => .fin (a * c) (b * d)
  | x, _ => x
/-- Quotient of finite values by one that is not zero. -/
def XR.div : XR → XR → XR
  | .fin a b, .fin c d => .fin (a * d * c.sign) (b * c.natAbs)
  | x, _ => x
/-- Zero. -/
def XR.zero : XR := .fin 0 1
/-- One. -/
def XR.one : XR := .fin 1 1

/-! ### Decoded values (R239) -/

/-- Planes before field number `i`. -/
def Node.planesBefore (n : Node) (i : Nat) : Nat := ((n.d.fields.take i).filter NodeField.isPlane).length

/-- Byte `m` of a plane field, decoded: origin plus q × 2^e, rounded once outward (R239). -/
def Node.plane (n : Node) (i m : Nat) : Nat :=
  match n.d.fields[i]? with
  | none => 0
  | some f =>
    let q := n.raw f / 256 ^ m % 256
    let o := n.bits / 256 ^ (n.d.origin + 4 * (n.planesBefore i % 3)) % 2 ^ 32
    let e := asSigned 8 (n.bits / 256 ^ n.d.exp % 256)
    match XR.f32 o with
    | none => ETy.f32.fmt.canon
    | some (.inf neg) => ETy.f32.fmt.signPat neg + ETy.f32.fmt.infPat
    | some x =>
      let s := scale2 q 1 e
      (x.add (.fin s.1 s.2)).round (if f.kind = 4 then 2 else 3)

/-- KEY and DKEY fields up to number `i`: the key's 32-bit pattern and the signedness of the KEY it starts from, which widens the
pattern (R239, assumption 65);
`sg` replaces every KEY's own SIGNED (R264). -/
def Node.key (n : Node) (sg : Option Bool) (i : Nat) : Word × Bool :=
  (n.d.fields.take (i + 1)).foldl (fun (acc : Word × Bool) f =>
    if f.kind = 6 then
      let s := sg.getD f.signed
      (if s then BitVec.ofInt 32 (asSigned f.width (n.raw f)) else BitVec.ofNat 32 (n.raw f), s)
    else if f.kind = 7 then (acc.1 + BitVec.ofNat 32 (n.raw f), acc.2)
    else acc) (0, false)

/-- The decoded value of field number `i` (R239); a DKEY's widens as the KEY it starts from does (assumption 65). -/
def Node.value (n : Node) (i : Nat) : DWord :=
  match n.d.fields[i]? with
  | none => 0
  | some f =>
    let x := n.raw f
    match f.kind with
    | 0 => if f.signed then BitVec.ofInt 64 (asSigned f.width x) else BitVec.ofNat 64 x
    | 1 => BitVec.ofNat 64 (if f.width = 16 then x * 65536 else x)
    | 3 => if x = 0 then 0 else mkRef (refCard n.ref) (refDec n.ref) (n.relAddr f).toNat
    | 4 => BitVec.ofNat 64 (n.plane i 0)
    | 5 => BitVec.ofNat 64 (n.plane i 0)
    | 6 => let k := n.key none i; if k.2 then sext64 k.1 else zext64 k.1
    | 7 => let k := n.key none i; if k.2 then sext64 k.1 else zext64 k.1
    | _ => BitVec.ofNat 64 x

/-- Numbers of the fields that satisfy `f`. -/
def Node.fieldsThat (n : Node) (f : NodeField → Bool) : List Nat := (n.d.fields.zipIdx.filter fun x => f x.1).map fun x => x.2

/-- Child `m` (R258): 0 where there is none. -/
def Node.child (n : Node) (m : Nat) : DWord :=
  match (n.fieldsThat NodeField.isRef)[m]? with
  | some i => if m < n.entries then n.value i else 0
  | none => 0

/-- The valid keys, by the signedness of the first KEY field; none where a DKEY meets KEYs of both kinds (R264). -/
def Node.keys (n : Node) : Option (List Int) :=
  let ks := n.fieldsThat NodeField.isKey
  let signs := (n.d.fields.filter fun f => f.kind == 6).map NodeField.signed
  let sg := signs.head?.getD false
  let mixed := signs.any fun x => x != sg
  if mixed ∧ n.d.fields.any (fun f => f.kind == 7) then none
  else some ((ks.take n.entries).map fun i =>
    let k := (n.key (some sg) i).1
    if sg then k.toInt else k.toNat)

/-! ### Boxes and triangles (R259) -/

/-- The eligible child boxes: number and the six planes xlo, ylo, zlo, xhi, yhi, zhi; none where the node lacks the
fields. -/
def Node.boxes (n : Node) : Option (List (Nat × List (Option XR))) :=
  let eligible (m : Nat) : Bool := decide (m < n.entries) && decide (n.child m ≠ 0)
  if n.d.comp = 1 then
    let q := n.fieldsThat NodeField.isPlane
    let fs := n.d.fields.filter NodeField.isPlane
    let w := (fs.head?.map NodeField.width).getD 1
    if (fs.map NodeField.kind) = [4, 4, 4, 5, 5, 5] ∧ w % 8 = 0 ∧ fs.all (fun f => f.width == w) then
      some (((List.range (w / 8)).filter eligible).map fun m => (m, q.map fun i => XR.f32 (n.plane i m)))
    else none
  else
    let q := (n.fieldsThat fun f => f.kind == 1).take 6
    if q.length < 6 then none
    else some (([0].filter eligible).map fun m => (m, q.map fun i => XR.f32 (n.value i).toNat))

/-- The nine vertex coordinates; none where the node lacks the fields. -/
def Node.triangle (n : Node) : Option (List Nat) :=
  let q := (n.fieldsThat fun f => f.kind == 1).take 9
  if q.length < 9 then none else some (q.map fun i => (n.value i).toNat)

/-! ### The tests (R260 to R263) -/

/-- A ray: origin, direction, tmin, tmax. -/
structure Ray where
  o : List XR
  dir : List XR
  tmin : XR
  tmax : XR

/-- The ray in four registers; none where it hits nothing (R260). -/
def Ray.of (w : List DWord) : Option Ray :=
  let v := w.flatMap fun x => [XR.f32 (loWord x).toNat, XR.f32 (hiWord x).toNat]
  match v with
  | [some ox, some oy, some oz, some tmin, some dx, some dy, some dz, some tmax] =>
    if [ox, oy, oz, tmin, dx, dy, dz, tmax].all XR.finite ∧ tmin.le tmax then
      some { o := [ox, oy, oz], dir := [dx, dy, dz], tmin := tmin, tmax := tmax }
    else none
  | _ => none

/-- One axis of R261: near and far, none for a miss. -/
def axisTest (o dir lo hi : XR) : Option (XR × XR) :=
  let t (p : XR) : XR := match p with
    | .inf n => .inf (n != decide (dir.sign < 0))
    | x => (x.sub o).div dir
  let rounded (x : XR) (rm : BitVec 3) : XR := (XR.f32 (x.round rm)).getD x
  if hi.lt lo then none
  else if dir.sign = 0 then (if lo.le o && o.le hi then some (.inf true, .inf false) else none)
  else some (rounded ((t lo).min (t hi)) 2, rounded ((t lo).max (t hi)) 3)

/-- R261 on one box: tnear of a hit. -/
def Ray.box (r : Ray) (p : List (Option XR)) : Option XR :=
  match p with
  | [some xl, some yl, some zl, some xh, some yh, some zh] =>
    match r.o, r.dir with
    | [ox, oy, oz], [dx, dy, dz] =>
      match axisTest ox dx xl xh, axisTest oy dy yl yh, axisTest oz dz zl zh with
      | some x, some y, some z =>
        let near := (x.1.max (y.1.max z.1)).max r.tmin
        let far := (x.2.min (y.2.min z.2)).min r.tmax
        if near.le far then some near else none
      | _, _, _ => none
    | _, _ => none
  | _ => some r.tmin

/-- Difference of two vectors. -/
def vsub (a b : List XR) : List XR := a.zipWith XR.sub b
/-- Inner product. -/
def vdot (a b : List XR) : XR := (a.zipWith XR.mul b).foldl XR.add XR.zero
/-- Cross product. -/
def vcross (a b : List XR) : List XR :=
  match a, b with
  | [a0, a1, a2], [b0, b1, b2] =>
    [(a1.mul b2).sub (a2.mul b1), (a2.mul b0).sub (a0.mul b2), (a0.mul b1).sub (a1.mul b0)]
  | _, _ => []

/-- R262: t, u and v of a hit. -/
def Ray.triangle (r : Ray) (v : List (Option XR)) : Option (XR × XR × XR) :=
  let c := v.filterMap id
  if c.length ≠ 9 ∨ !c.all XR.finite then none
  else
    let v0 := c.take 3
    let e1 := vsub ((c.drop 3).take 3) v0
    let e2 := vsub (c.drop 6) v0
    let s := vsub r.o v0
    let q := vcross s e1
    let p := vcross r.dir e2
    let det := vdot e1 p
    if det.sign = 0 then none
    else
      let t := (vdot e2 q).div det
      let u := (vdot s p).div det
      let w := (vdot r.dir q).div det
      if XR.zero.le u && XR.zero.le w && (u.add w).le XR.one && r.tmin.le t && t.le r.tmax then some (t, u, w) else none

/-- R263: a corner is inside a plane; none where the test is undefined. -/
def planeSide (pl corner : List XR) : Option Bool :=
  let prod (a b : XR) : Option XR :=
    if a.finite && b.finite then some (a.mul b)
    else if a.sign = 0 ∨ b.sign = 0 then none
    else some (.inf (decide (a.sign * b.sign < 0)))
  let terms := ((pl.take 3).zipWith prod corner) ++ (pl.drop 3).map some
  let xs := terms.filterMap id
  let negs := xs.any fun x => x == .inf true
  let poss := xs.any fun x => x == .inf false
  if xs.length ≠ terms.length ∨ (negs ∧ poss) then none
  else if negs then some false
  else if poss then some true
  else some (XR.zero.le (xs.foldl XR.add XR.zero))

/-- R263 on one box: 0 outside, 1 partial, 2 inside. -/
def frustClass (planes : List (List (Option XR))) (box : List (Option XR)) : Nat :=
  if (planes.any fun p => p.any Option.isNone) ∨ box.any Option.isNone then 1
  else
    let b := box.filterMap id
    let at_ (i : Nat) : XR := b[i]?.getD XR.zero
    let corners := [0, 3].flatMap fun i => [1, 4].flatMap fun j => [2, 5].map fun k => [at_ i, at_ j, at_ k]
    let tests := planes.map fun p => corners.map fun c => planeSide (p.filterMap id) c
    if tests.any fun t => t.any Option.isNone then 1
    else if tests.any fun t => t.all fun x => x == some false then 0
    else if tests.all fun t => t.all fun x => x == some true then 2 else 1

end Sys2Proof.Machine
end

