-- ==== Sys2Proof/Machine/Cover.lean ====
section
/-! DEFINITION. What the coverage units compute and hold (R388 to R393): views, transforms, tiles, sending a triangle and
committing one. -/

namespace Sys2Proof.Machine

/-! ### View records (R388) -/

/-- VISBASE. -/
def viewBase (v : Line) : Nat := lineField v 0 8
/-- WIDTH. -/
def viewWidth (v : Line) : Nat := lineField v 8 2
/-- HEIGHT. -/
def viewHeight (v : Line) : Nat := lineField v 10 2
/-- SAMPLES. -/
def viewSamples (v : Line) : Nat := lineField v 12 1
/-- CULL. -/
def viewCull (v : Line) : Bool := decide (lineField v 13 1 % 2 = 1)
/-- Entry `k` of M, as an f32 pattern. -/
def viewM (v : Line) (k : Nat) : Nat := lineField v (16 + 4 * k) 4
/-- The record's rules. -/
def viewOk (v : Line) : Bool :=
  decide (viewBase v % 65536 = 0) && decide (1 ≤ viewWidth v) && decide (viewWidth v ≤ 8192) && decide (1 ≤ viewHeight v)
    && decide (viewHeight v ≤ 8192) && [1, 2, 4, 8].contains (viewSamples v) && decide (lineField v 13 1 < 2)
    && decide (lineField v 14 2 = 0)
/-- Tiles across. -/
def viewTilesX (v : Line) : Nat := (viewWidth v + 63) / 64
/-- Tiles down. -/
def viewTilesY (v : Line) : Nat := (viewHeight v + 63) / 64
/-- Address of sample `k` of pixel (x, y). -/
def sampleAddr (v : Line) (x y k : Nat) : Nat :=
  viewBase v + (((y / 64 * viewTilesX v + x / 64) * 4096 + y % 64 * 64 + x % 64) * viewSamples v + k) * 8
/-- The die that owns the tile of pixel (x, y) (R391). -/
def tileDie (tx ty : Nat) : Nat := (tx + ty) % 2
/-- The number of a tile within its view. -/
def tileNumber (v : Line) (tx ty : Nat) : Nat := ty * viewTilesX v + tx

/-! ### The transform (R389) -/

/-- One transformed coordinate: row `row` of M times (x, y, z, 1), rounded once. -/
def viewCoord (v : Line) (row : Nat) (p : List Nat) : Nat :=
  let f (x : Nat) : FVal := ETy.f32.fmt.decode x
  let m (j : Nat) : FVal := f (viewM v (4 * row + j))
  ETy.f32.fmt.round 0 0 (sumF 0 ((p.zipIdx.map fun x => mulF (m x.2) (f x.1)) ++ [m 3]))

/-- The nine transformed coordinates of nine vertex coordinates. -/
def viewTransform (v : Line) (c : List Nat) : List Word :=
  (List.range 3).flatMap fun i => (List.range 3).map fun row => BitVec.ofNat 32 (viewCoord v row ((c.drop (3 * i)).take 3))

/-- Coordinate `j` of vertex `i`. -/
def vert (t : List Word) (i j : Nat) : XR := ((XR.f32 ((t[3 * i + j]?).getD 0).toNat)).getD XR.zero

/-- Twice the signed area of vertices a, b and the point (x, y), with y pointing down. -/
def edgeFn (ax ay bx by_ x y : XR) : XR := ((bx.sub ax).mul (y.sub ay)).sub ((by_.sub ay).mul (x.sub ax))

/-- Twice the triangle's area. -/
def doubleArea (t : List Word) : XR :=
  edgeFn (vert t 0 0) (vert t 0 1) (vert t 1 0) (vert t 1 1) (vert t 2 0) (vert t 2 1)

/-- Step 2 of R389: the triangle is resolved at all. -/
def triangleKept (v : Line) (t : List Word) : Bool :=
  (t.all fun x => match XR.f32 x.toNat with | some y => y.finite | none => false)
    && decide ((doubleArea t).sign ≠ 0) && !(viewCull v && decide ((doubleArea t).sign < 0))

/-- Integer part, rounded down. -/
def XR.floor : XR → Int
  | .fin n d => n / d
  | .inf _ => 0

/-- The tile range of one axis (0 for x, 1 for y): first and last tile that the bounding box touches on the screen. -/
def tileRange (t : List Word) (axis tiles : Nat) : Option (Nat × Nat) :=
  let c (i : Nat) : XR := vert t i axis
  let lo := ((c 0).min ((c 1).min (c 2))).floor / 64
  let hi := ((c 0).max ((c 1).max (c 2))).floor / 64
  if hi < 0 ∨ (tiles : Int) ≤ lo then none else some (lo.toNat, Nat.min hi.toNat (tiles - 1))

/-- The tiles that a triangle's bounding box touches (R391). -/
def touchedTiles (v : Line) (t : List Word) : List (Nat × Nat) :=
  match tileRange t 0 (viewTilesX v), tileRange t 1 (viewTilesY v) with
  | some (x0, x1), some (y0, y1) =>
    (List.range (y1 + 1 - y0)).flatMap fun j => (List.range (x1 + 1 - x0)).map fun i => (x0 + i, y0 + j)
  | _, _ => []

/-- The dies a triangle goes to: none where it is discarded or off the screen. -/
def triangleDies (v : Line) (t : List Word) : List Nat :=
  if triangleKept v t then
    [0, 1].filter fun d => (touchedTiles v t).any fun x => tileDie x.1 x.2 == d
  else []

/-! ### Coverage and depth (R389) -/

/-- The sample positions of a pixel, in sixteenths. -/
def samplePositions : Nat → List (Nat × Nat)
  | 2 => [(4, 4), (12, 12)]
  | 4 => [(6, 2), (14, 6), (2, 10), (10, 14)]
  | 8 => [(9, 5), (7, 11), (13, 9), (5, 3), (3, 13), (1, 7), (11, 15), (15, 1)]
  | _ => [(8, 8)]

/-- A point is inside an edge from a to b of a triangle of positive area. -/
def insideEdge (ax ay bx by_ x y : XR) : Bool :=
  let e := (edgeFn ax ay bx by_ x y).sign
  let top := decide ((by_.sub ay).sign = 0) && decide (0 < (bx.sub ax).sign)
  let left := decide ((by_.sub ay).sign < 0)
  decide (0 < e) || (decide (e = 0) && (top || left))

/-- The f32 depth at a point of the screen that the triangle covers. -/
def coveredDepth (t : List Word) (x y : XR) : Option Nat :=
  let order := if (doubleArea t).sign < 0 then [0, 2, 1] else [0, 1, 2]
  let v (i j : Nat) : XR := vert t ((order[i % 3]?).getD 0) j
  let edge (i : Nat) : Bool := insideEdge (v i 0) (v i 1) (v (i + 1) 0) (v (i + 1) 1) x y
  let w (i : Nat) : XR := edgeFn (v (i + 1) 0) (v (i + 1) 1) (v (i + 2) 0) (v (i + 2) 1) x y
  if edge 0 && edge 1 && edge 2 then
    let sum := (((w 0).mul (v 0 2)).add ((w 1).mul (v 1 2))).add ((w 2).mul (v 2 2))
    some ((sum.div (((w 0).add (w 1)).add (w 2))).round 0)
  else none

/-- The covered samples of a tile: pixel, sample number and depth. -/
def tileSamples (v : Line) (t : List Word) (tx ty : Nat) : List (Nat × Nat × Nat × Nat) :=
  (List.range 64).flatMap fun j => (List.range 64).flatMap fun i =>
    let x := tx * 64 + i
    let y := ty * 64 + j
    if viewWidth v ≤ x ∨ viewHeight v ≤ y then []
    else (samplePositions (viewSamples v)).zipIdx.filterMap fun p =>
      (coveredDepth t (.fin (16 * x + p.1.1 : Nat) 16) (.fin (16 * y + p.1.2 : Nat) 16)).map fun z => (x, y, p.2, z)

/-! ### Sending (R390, R391) -/

/-- The inputs of the dies have room. -/
def State.coverRoom (s : State) (dies : List Nat) : Bool :=
  dies.all fun d => decide ((s.cover d).input.length < Config.coverageInput)

/-- Send a triangle to one die with the stream's next token. -/
def State.sendTo (s : State) (t : Triangle) (die : Nat) : State :=
  let u := s.cover die
  let n := (Assoc.find u.nextSend t.stream).getD 0
  s.setCover die { u with input := u.input ++ [{ t with token := n }], nextSend := Assoc.set u.nextSend t.stream (n + 1) }

/-- Send a triangle to every die it goes to. -/
def State.sendTriangle (s : State) (t : Triangle) : State := (triangleDies t.viewRec t.verts).foldl (fun s d => s.sendTo t d) s

end Sys2Proof.Machine
end

