-- ==== Sys2Proof/Machine/Ecc.lean ====
section
/-! DEFINITION. Check values and SECDED (R427, R428): what a mismatch or a soft error of a line does. -/

namespace Sys2Proof.Machine

/-- One bit of the reflected CRC-32C (R427). -/
def crcStep (c : Word) : Word := if c.getLsbD 0 then (c >>> 1) ^^^ 0x82F63B78 else c >>> 1

/-- CRC-32C of bytes in address order: Castagnoli polynomial 0x1EDC6F41 reflected, initial value and final XOR all ones. -/
def crc32c (bs : List Byte) : Word :=
  (bs.foldl (fun c b => (List.range 8).foldl (fun c _ => crcStep c) (c ^^^ b.setWidth 32)) 0xFFFFFFFF) ^^^ 0xFFFFFFFF

/-- The check value of a line. -/
def State.lineCheck (s : State) (line : Nat) : Word := crc32c (s.mem.bytes (line * 64) 64)

/-- The die of a line's home (R177, R418): the half of device memory that holds it, or bit [21] of a host address. -/
def lineDie (line : Nat) : Nat :=
  if line * 64 < 0x2000000000 then (if line * 64 < 0x1000000000 then 0 else 1) else line * 64 / 2 ^ 21 % 2

/-- Mark a line poisoned. -/
def State.poison (s : State) (line : Nat) : State := { s with poisoned := distinct (s.poisoned ++ [line]) }

/-- How many of the sends of a line over a hop arrive with another check value than the line's, before the first that
matches; the hop sends it four times at most (R427). -/
def hopMismatches (want : Word) (got : List Word) : Nat := ((got.take 4).takeWhile fun x => x != want).length

/-- SOURCE of a hop's record (R431): the on-die network counts as core control logic (assumption 71). -/
def hopSource : Hop → Nat
  | .network => 13
  | .ucie => 8
  | .ualink => 10

/-- Record what a hop finds: TYPE 3 for each retransmission, TYPE 4 for the fourth mismatch (R427). LOC is the line's channel
(assumption 71). -/
def State.hopRecords (s : State) (hop : Hop) (line n : Nat) : State :=
  let record (s : State) (type : Nat) : State := s.addError (lineDie line) (hopSource hop) type (Config.channelOf line).toNat 0xFFFF (line * 64)
  let s := (List.range (Nat.min 3 n)).foldl (fun s _ => record s 3) s
  if 4 ≤ n then record s 4 else s

/-- The test of a line that is read from L2 (SOURCE 6), from GDDR7 (SOURCE 7) or from an L1 (SOURCE 1): a single-bit error is
corrected, a double-bit error and a failing check value poison the line in place; each is recorded (R427, R428). -/
def State.eccFrom (s : State) (source loc line : Nat) (ecc : EccResult) : State :=
  let record (s : State) (type : Nat) : State := s.addError (lineDie line) source type loc 0xFFFF (line * 64)
  match ecc with
  | .clean => s
  | .single => record s 1
  | .double => record (s.poison line) 2
  | .checkFailed => record (s.poison line) 4

/-- The test of a line that comes from GDDR7. -/
def State.eccLine (s : State) (line : Nat) (ecc : EccResult) : State := s.eccFrom 7 (Config.channelOf line).toNat line ecc

end Sys2Proof.Machine
end

