-- ==== Sys2Proof/Machine/Walker.lean ====
section
/-! DEFINITION. What the walkers share: accesses (R238, R463), the stack (R245), posting (R242 to R244), one walker step
(R231), the start of a query (R232 to R235) and the remote hand-off (R248, R249). -/

namespace Sys2Proof.Machine

/-! ### Walkers -/

/-- A walker that runs a query. -/
def State.walker (s : State) (k : Nat) : Option Walker := Assoc.find (s.core (k / 64)).walkers (k % 64)
/-- Put a walker. -/
def State.setWalker (s : State) (k : Nat) (w : Walker) : State :=
  s.setCore (k / 64) { s.core (k / 64) with walkers := Assoc.set (s.core (k / 64)).walkers (k % 64) w }
/-- Free a walker. -/
def State.freeWalker (s : State) (k : Nat) : State :=
  s.setCore (k / 64) { s.core (k / 64) with walkers := Assoc.erase (s.core (k / 64)).walkers (k % 64) }

/-- The agent of a walker. -/
def State.walkerWho (s : State) (k : Nat) (w : Walker) : Who :=
  match w.shipped with
  | some h => { core := k / 64, pav := h.pav, ctx := h.ctx, block := w.block, uid := w.uid }
  | none =>
    match s.block w.block with
    | some b => { core := k / 64, pav := b.pav, ctx := b.ctx, block := w.block, uid := w.uid }
    | none => { core := k / 64, pav := 0, ctx := 0, block := w.block, uid := w.uid }

/-- w0 to w15. -/
def Walker.reg (w : Walker) (r : WReg) : DWord := (w.w[r.toNat]?).getD 0
/-- Write a register. -/
def Walker.setReg (w : Walker) (r : WReg) (x : DWord) : Walker := { w with w := w.w.setIfInBounds r.toNat x }
/-- The query runs on the partner card (R249). -/
def Walker.isRemote (w : Walker) : Bool :=
  match w.wait with
  | .remote _ => true
  | _ => false
/-- Write the f flag. -/
def Walker.setF (w : Walker) (f : Bool) : Walker := { w with f := f }

/-- The status codes of R244. -/
inductive QStatus where
  | done | emit | hook | tableRange | nullRecord | stackDepth | nodeMalformed | fabric | illegal | poison
  deriving DecidableEq, Repr

/-- Their numbers. -/
def QStatus.code : QStatus → Nat
  | .done => 0 | .emit => 1 | .hook => 2 | .tableRange => 3 | .nullRecord => 4 | .stackDepth => 5 | .nodeMalformed => 6
  | .fabric => 7 | .illegal => 8 | .poison => 9

/-- What keeps a walker step from retiring: the query ends (R244), a fault the driver may resolve (R238), an access of
partner memory without its answer (R463), poison (R238, R430), an entry to post (R242; `read` are the
bytes that the step has read, R440), or a wait (R230). -/
inductive WStop where
  | ended (status : QStatus) (payload : DWord)
  | fault (va : DWord) (kind : AccessKind)
  | fabric (asks : List Ask)
  | poison (pa : Nat) (line : DWord)
  | post (status : QStatus) (payload : DWord) (terminal f : Bool) (read : Nat := 0)
  | wait (r : WalkerWait)
  deriving DecidableEq, Repr

/-- The effect of a walker step, or what stops it. -/
abbrev WRun (α : Type) := Except WStop α

/-- End the query. -/
def endQuery {α : Type} (status : QStatus) (payload : DWord) : WRun α := .error (.ended status payload)

/-- The step breaks a limit of its word's entry: the payload is the word's address (R255). `pc` stands past the word. -/
def Walker.illegal {α : Type} (w : Walker) : WRun α := endQuery .illegal (w.pc - 4)

/-! ### Accesses (R238, R257, R463) -/

/-- The first byte of an access that fails on its own, which is the address an ILLEGAL names. -/
def State.failingByte (s : State) (who : Who) (kind : AccessKind) (va n : Nat) : DWord :=
  match (List.range n).find? fun i => match s.resolve who kind false (va + i) 1 with | .error _ => true | .ok _ => false with
  | some i => BitVec.ofNat 64 (va + i)
  | none => BitVec.ofNat 64 va

/-- Spans of a walker access, with the partner card's answers that have come: reads find the visible backing of a publish window,
writes the shadow one (R302). -/
def State.walkerSpans (s : State) (k : Nat) (w : Walker) (kind : AccessKind) (va : DWord) (n : Nat) : WRun (List Span) :=
  let who := s.walkerWho k w
  match s.resolve who kind (kind == .write) va.toNat n with
  | .error (.fault a) => .error (.fault (BitVec.ofNat 64 a) kind)
  | .error _ => endQuery .illegal (s.failingByte who kind va.toNat n)
  | .ok l => .ok (withReplies w.answers kind 0 l)

/-- The accesses of a step at the partner card (R463): what has no answer leaves as one group, and a fault response ends the
query; each access is its address, its spans and what it stores. -/
def walkerAnswers (kind : AccessKind) (l : List (DWord × List Span × List Byte)) : WRun Unit :=
  let asks := l.flatMap fun x => spanAsks kind 0 {} x.2.1 x.2.2 []
  if !asks.isEmpty then .error (.fabric asks)
  else match l.find? fun x => x.2.1.any fun y => replyFault y.reply with
    | some x => endQuery .fabric x.1
    | none => .ok ()

/-- The first poisoned byte of a span: one of a poisoned line, of an answer or a page that gives poison, or of a line that a hop
has poisoned (R238, R416, R427). -/
def State.firstPoison (s : State) (w : Walker) (x : Span) : Option Nat :=
  let hit (i : Nat) : Bool := w.struck == some ((x.key + i) / 64)
  if s.spanPoisoned x then
    some (((List.range x.len).find? fun i => s.poisoned.contains ((x.key + i) / 64)).getD 0)
  else if w.struck.isSome then (List.range x.len).find? hit
  else none

/-- Read `n` bytes; poisoned bytes reach no register. -/
def State.walkerRead (s : State) (k : Nat) (w : Walker) (kind : AccessKind) (va : DWord) (n : Nat) : WRun (List Byte) :=
  match s.walkerSpans k w kind va n with
  | .error e => .error e
  | .ok l =>
    match walkerAnswers kind [(va, l, [])] with
    | .error e => .error e
    | .ok _ =>
      match l.findSome? fun x => (s.firstPoison w x).map fun i => (x, i) with
      | some (x, i) => .error (.poison (if x.scratch then 0 else (x.key + i) / 64 * 64) (BitVec.ofNat 64 ((x.va + i) / 64 * 64)))
      | none => .ok (s.loadSpans w.uid l)

/-- Count the bytes that a walker has read (R440). -/
def State.countRead (s : State) (k : Nat) (w : Walker) (n : Nat) : State := s.countBytes (s.walkerWho k w) n 0 0

/-- The stores of a step, each an address and bytes: every one is translated and answered before any is performed. -/
def State.walkerStores (s : State) (k : Nat) (w : Walker) (l : List (DWord × List Byte)) : WRun State :=
  match l.mapM fun x => (s.walkerSpans k w .write x.1 x.2.length).map fun y => (x.1, y, x.2) with
  | .error e => .error e
  | .ok l =>
    match walkerAnswers .write l with
    | .error e => .error e
    | .ok _ =>
      let n := l.foldl (fun n x => n + x.2.2.length) 0
      .ok ((l.foldl (fun s x => s.engineStore (s.walkerWho k w).ctxKey (spanCells x.2.1 x.2.2)) s).countBytes (s.walkerWho k w) 0 n 0)

/-! ### The node in NODEBUF (R239, R240, R257) -/

/-- Decoder `i` of the program. -/
def Walker.decoder (w : Walker) (i : Nat) : Decoder := Decoder.ofBytes ((w.prog.decoders[i]?).getD [])

/-- The node an instruction uses, with the checks of R240. -/
def Walker.node (w : Walker) : WRun Node :=
  if w.noderef = 0 then endQuery .nodeMalformed 0
  else
    let d := w.decoder (refDec w.noderef)
    let n : Node := { d := d, bits := leNat (w.nodebuf.take d.bytes), ref := w.noderef }
    if n.ok then .ok n else endQuery .nodeMalformed w.noderef

/-- A node that lacks the fields its test needs (R259). -/
def Walker.lacking {α : Type} (w : Walker) : WRun α := endQuery .nodeMalformed w.noderef

/-! ### The stack (R245) -/

/-- The spill slot of depth `d`. -/
def Walker.slotOf (w : Walker) (d : Nat) : DWord := w.spill + BitVec.ofNat 64 (16 * (d - 1))

/-- The 16 bytes of an entry. -/
def StackEntry.bytes (e : StackEntry) : List Byte := leBytes e.ref.toNat 8 ++ leBytes e.key.toNat 4 ++ leBytes e.aux.toNat 4

/-- An entry from its bytes. -/
def StackEntry.ofBytes (bs : List Byte) : StackEntry :=
  { ref := BitVec.ofNat 64 (leNat (bs.take 8)), key := BitVec.ofNat 32 (leNat ((bs.drop 8).take 4)),
    aux := BitVec.ofNat 32 (leNat ((bs.drop 12).take 4)) }

/-- The first of several entries that cannot be pushed, from a depth and a resident count on (R245, R268). -/
def refusedPush (spill : DWord) : Nat → Nat → List StackEntry → Option DWord
  | _, _, [] => none
  | depth, resident, e :: t =>
    if 128 ≤ depth ∨ (resident = 16 ∧ spill = 0) then some e.ref
    else refusedPush spill (depth + 1) ((if resident = 16 then 8 else resident) + 1) t

/-- A walker with one more entry, and the spill that the push makes. -/
def Walker.pushed (w : Walker) (e : StackEntry) : Walker × List (DWord × List Byte) :=
  if w.stack.length < 16 then ({ w with stack := w.stack ++ [e], depth := w.depth + 1 }, [])
  else
    ({ w with stack := w.stack.drop 8 ++ [e], depth := w.depth + 1 },
     [(w.slotOf (w.depth - 15), (w.stack.take 8).flatMap StackEntry.bytes)])

/-- A walker with more entries, first to last, and their spills. -/
def Walker.pushedAll (w : Walker) : List StackEntry → Walker × List (DWord × List Byte)
  | [] => (w, [])
  | e :: t =>
    let x := w.pushed e
    let y := x.1.pushedAll t
    (y.1, x.2 ++ y.2)

/-- Push several entries, or none and end the query. -/
def State.push (s : State) (k : Nat) (w : Walker) (l : List StackEntry) : WRun (State × Walker) :=
  match refusedPush w.spill w.depth w.stack.length l with
  | some r => endQuery .stackDepth r
  | none => (s.walkerStores k w (w.pushedAll l).2).map fun s => (s, (w.pushedAll l).1)

/-- Take the top entry off and fill the hardware from the spill area. -/
def State.pop (s : State) (k : Nat) (w : Walker) : WRun (State × Option (StackEntry × Walker)) :=
  match w.stack.getLast? with
  | none => .ok (s, none)
  | some e =>
    let w' := { w with stack := w.stack.dropLast, depth := w.depth - 1 }
    if w'.stack.isEmpty ∧ w'.depth ≠ 0 then
      let n := Nat.min 8 w'.depth
      match s.walkerRead k w .read (w.slotOf (w'.depth + 1 - n)) (16 * n) with
      | .error x => .error x
      | .ok bs =>
        .ok (s.countRead k w (16 * n), some (e, { w' with stack := (List.range n).map fun i => StackEntry.ofBytes ((bs.drop (16 * i)).take 16) }))
    else .ok (s, some (e, w'))

/-! ### Posting (R236, R242 to R244, R247) -/

/-- A walker that waits with an entry it is ready to post. -/
def Walker.readyToPost (w : Walker) : Bool :=
  match w.wait with
  | .post _ terminal _ => !terminal || decide (w.covers = 0)
  | _ => false

/-- The half whose Sluice a walker posts to. -/
def State.walkerHalf (s : State) (k : Nat) (w : Walker) : Option (Block × Half) :=
  (s.block w.block).bind fun b => (b.half (k / 64)).map fun h => (b, h)

/-- An entry may be posted now: its query's primitives are committed where it is the last, the Sluice has room, and no
walker of the block and core whose query was launched earlier is ready to post. -/
def State.canPost (s : State) (k : Nat) (w : Walker) (terminal : Bool) : Bool :=
  (!terminal || decide (w.covers = 0)) &&
    (w.shipped.isSome || match s.walkerHalf k w with
      | none => true
      | some (_, h) =>
        decide (h.sluiceTail - h.sluiceHead < 256)
          && !((s.core (k / 64)).walkers.any fun x =>
            x.1 != k % 64 && x.2.block == w.block && decide (x.2.launch < w.launch) && x.2.readyToPost))

/-- Post an entry: into the Sluice, or back to the originating card for a shipped query. A terminal entry counts and frees
the walker. -/
def State.postEntry (s : State) (k : Nat) (w : Walker) (e : SluiceEntry) (terminal : Bool) : State :=
  let s := match w.shipped with
    | some h => if s.pf.ualup then s.emit (.remoteEntry h.origin e h.query) else s
    | none =>
      match s.walkerHalf k w with
      | none => s
      | some (b, h) =>
        let s := s.performCells (cellsFrom (sluiceKey b h h.sluiceTail) (leBytes e.tag.toNat 4 ++ leBytes e.status 4
          ++ leBytes e.payload.toNat 8))
        (s.onBlock w.block fun x => x.onHalf (k / 64) fun h =>
          { h with sluiceTail := h.sluiceTail + 1, completed := if terminal then h.completed + 1 else h.completed }).wake
          w.block .tickets
  if terminal then s.freeWalker k else s

/-- A walker step that posts: it retires with the entry, or waits. -/
def State.postOrWait (s : State) (k : Nat) (w : Walker) (e : SluiceEntry) (terminal f : Bool) : State :=
  if s.canPost k w terminal then
    (if terminal then s else s.setWalker k { w with f := f, pc := w.pc + 4, wait := .none, answers := [], struck := none }).postEntry k w e terminal
  else s.setWalker k { w with wait := .post e terminal f, answers := [], struck := none }

/-- A query that ends on this card while it is remote: entries that still come for it are discarded (R249). -/
def State.noteEnded (s : State) (k : Nat) (w : Walker) : State :=
  let who := s.walkerWho k w
  if w.isRemote then { s with ended := s.ended ++ [(w.uid, who.pav, who.ctx)] } else s

/-- End a walker's query with a terminal status. -/
def State.endWalker (s : State) (k : Nat) (w : Walker) (status : QStatus) (payload : DWord) : State :=
  (s.noteEnded k w).postOrWait k { w with remoteOver := w.remoteOver || w.isRemote }
    { tag := w.tag, status := status.code, payload := payload } true w.f

/-- What stops a walker step (R230, R238, R430, R463). -/
def State.stopWalker (s : State) (k : Nat) (w : Walker) : WStop → State
  | .ended st p => s.endWalker k w st p
  | .post st p terminal f _ => s.postOrWait k w { tag := w.tag, status := st.code, payload := p } terminal f
  | .wait r => s.setWalker k { w with wait := r }
  | .fault va kind =>
    let who := s.walkerWho k w
    if s.faultRing who.pav then
      (s.pendFault who.pav who.ctx who.core va kind (.walker k) 0).setWalker k { w with wait := .fault s.fresh, answers := [] }
    else s.endWalker k w .illegal va
  | .fabric asks => (s.askGroup (s.walkerWho k w) (.walker k) asks).setWalker k { w with wait := .fabric s.fresh }
  | .poison pa line =>
    let who := s.walkerWho k w
    (s.endWalker k w .poison line).consumePoison who.core who.pav who.ctx 5 pa 0

/-! ### One walker step (R231) -/

/-- Run the effect of the GTS word of walker `State.curWalker`. The effect is given the walker with `pc` past the word. A
step retires whole or has no effect; one that posts or ends the query has retired too, and counts (R440). -/
def runWalker (s : State) (effect : State → Walker → WRun (State × Walker)) : Host.Outcome State Fault Refusal :=
  match s.walker s.curWalker with
  | none => .fault .noWalker
  | some w =>
    let w := { w with wait := .none, waited := 0 }
    let who := s.walkerWho s.curWalker w
    match effect s { w with pc := w.pc + 4 } with
    | .ok (s', w') => .next ((s'.count who.core who.pav who.ctx 6 1).setWalker s.curWalker
        { w' with answers := [], struck := none })
    | .error (.post st p terminal f n) =>
      .next (((s.count who.core who.pav who.ctx 6 1).countRead s.curWalker w n).stopWalker s.curWalker w (.post st p terminal f n))
    | .error (.ended st p) => .next ((s.count who.core who.pav who.ctx 6 1).stopWalker s.curWalker w (.ended st p))
    | .error e => .next (s.stopWalker s.curWalker w e)

/-- A step that reads and writes only the walker. -/
def runOwn (s : State) (effect : Walker → WRun Walker) : Host.Outcome State Fault Refusal :=
  runWalker s fun s w =>
    match effect w with
    | .ok w' => .ok (s, w')
    | .error e => .error e

/-- Fetch a walker's next GTS word (R253, R255). -/
def State.fetchGts (s : State) (k : Nat) (w : Walker) : WRun Word :=
  if globalEnd ≤ w.pc.toNat then endQuery .illegal w.pc
  else
    match s.walkerRead k w .fetch w.pc 4 with
    | .error (.ended .illegal _) => endQuery .illegal w.pc
    | .error e => .error e
    | .ok bs => .ok (BitVec.ofNat 32 (leNat bs))

/-! ### The start of a query (R232 to R235) -/

/-- Read the program header and the decoders (R234): CODE and the program. -/
def State.readProgram (s : State) (k : Nat) (w : Walker) : WRun (DWord × WalkerProgram) :=
  let va := s.recordAddr (s.walkerWho k w) w.prog.index
  match s.walkerRead k w .read va 64 with
  | .error e => .error e
  | .ok bs =>
    let h := lineOf bs
    let ndec := lineField h 16 1
    if !headerOk h then endQuery .illegal va
    else
      match (if ndec = 0 then .ok [] else s.walkerRead k w .read (BitVec.ofNat 64 (lineField h 8 8)) (80 * ndec)) with
      | .error e => .error e
      | .ok ds =>
        .ok (BitVec.ofNat 64 (lineField h 0 8),
          { index := w.prog.index, code := BitVec.ofNat 64 (lineField h 0 8), ndec := ndec,
            hookCount := BitVec.ofNat 32 (lineField h 20 4), hookBase := BitVec.ofNat 64 (lineField h 24 8),
            decoders := (List.range ndec).map fun i => (ds.drop (80 * i)).take 80 })

/-- Read the query record of a query that has not read it: TAG is known from then on (R233). -/
def State.readQuery (s : State) (k : Nat) (w : Walker) : WRun Walker :=
  match w.start with
  | .query =>
    (s.walkerRead k w .read w.query 64).map fun bs =>
      let q := lineOf bs
      { w with
        w := ((Vector.replicate 16 0).set 0 w.query).set 1 (BitVec.ofNat 64 (lineField q 0 8))
          |>.set 2 (BitVec.ofNat 64 (lineField q 8 8)),
        tag := BitVec.ofNat 32 (lineField q 8 4), spill := BitVec.ofNat 64 (lineField q 56 8), start := .header }
  | _ => .ok w

/-- Read the program of a walker that has to; a fresh query starts at its CODE (R234). -/
def State.startReads (s : State) (k : Nat) (w : Walker) : WRun Walker :=
  (s.readProgram k w).map fun x =>
    { w with prog := x.2, pc := if w.start = .header then x.1 else w.pc, start := .running }

/-- Begin or go on with the start of a walker's query: a shipped stack's lower entries go to its spill area first (R248). -/
def State.beginQuery (s : State) (k : Nat) (w : Walker) : State :=
  let w := { w with wait := .none }
  let spilled := if w.arriving.isEmpty then .ok s
    else s.walkerStores k w [(w.slotOf 1, w.arriving.flatMap StackEntry.bytes)]
  match spilled with
  | .error e => s.stopWalker k w e
  | .ok s =>
    let w := { w with arriving := [] }
    match s.readQuery k w with
    | .error e => s.stopWalker k w e
    | .ok x =>
      let s := if w.start = .query then s.countRead k w 64 else s
      match s.startReads k x with
      | .ok w' => (s.countRead k w' (64 + 80 * w'.prog.ndec)).setWalker k { w' with answers := [], struck := none }
      | .error e => s.stopWalker k x e

/-- A program of which only the index is known. -/
def emptyProgram (index : Nat) : WalkerProgram :=
  { index := index, code := 0, ndec := 0, hookCount := 0, hookBase := 0, decoders := [] }

/-- The walker that a FIFO entry starts: a fresh query, or a query that the partner card shipped (R248). -/
def LaunchEntry.walker (e : LaunchEntry) (n : Nat) : Walker :=
  match e.handoff with
  | none =>
    { uid := n, block := e.block, launch := n, w := Vector.replicate 16 0, pc := 0, query := e.query, tag := 0, spill := 0,
      prog := emptyProgram e.prog, start := .query }
  | some m =>
    let flip (x : StackEntry) : StackEntry := { x with ref := x.ref ^^^ (1#64 <<< 56) }
    let regs : Vector DWord 16 := Vector.ofFn fun i => (m.regs[i.val]?).getD 0
    let home := regs.setIfInBounds m.named.toNat (((regs[m.named.toNat]?).getD 0) &&& ~~~(15#64 <<< 56))
    { uid := n, block := n, launch := n, w := home, f := m.f, pc := m.pc,
      stack := (m.stack.drop (m.stack.length - 16)).map flip, arriving := (m.stack.take (m.stack.length - 16)).map flip,
      depth := m.stack.length, nodebuf := m.nodebuf,
      noderef := m.noderef, query := 0, tag := m.tag, spill := BitVec.ofNat 64 (lineField m.query 56 8),
      prog := emptyProgram m.prog, start := .program,
      shipped := some { query := m.query, origin := m.origin, pav := m.pav, ctx := m.ctx } }

/-- QUERY_START (R235): the free walker of the lowest number takes the oldest entry of the launch FIFO (DESIGN CHOICE,
assumption 72). -/
def execQueryStart (core : Nat) (s : State) : Host.Outcome State Fault Refusal :=
  let c := s.core core
  match c.fifo, (List.range (s.walkerSlots core)).find? fun k => (Assoc.find c.walkers k).isNone with
  | e :: rest, some k =>
    if c.halted ∨ (s.hostOf (core / 2)).isNone then .next s
    else
      let w := e.walker s.fresh
      let s := ((s.setCore core { c with fifo := rest }).setWalker (core * 64 + k) w).bump
      .next (s.beginQuery (core * 64 + k) w)
  | _, _ => .next s

/-! ### The ends of waits (R230, R242) -/

/-- What a walker waits for is over. -/
def State.waitOver (s : State) (k : Nat) (w : Walker) : Bool :=
  match w.wait with
  | .fault id => !((s.pav (s.walkerWho k w).pav).faults.any fun f => f.id == id)
  | .fabric id => !(s.fabric.any fun r => r.group == id)
  | .cover dies => s.coverRoom dies
  | .link => s.pf.ualup
  | _ => false

/-- WALKER_WAIT_END (R230, R238, R427): the walker is running again; or, for one that runs, a line of its next step comes over a
hop that some sends reach with another check value. -/
def execWalkerWaitEnd (x : WalkerLine) (s : State) : Host.Outcome State Fault Refusal :=
  match s.walker x.walker with
  | none => .next s
  | some w =>
    if s.waitOver x.walker w then .next (s.setWalker x.walker { w with wait := .none })
    else if w.wait = .none then
      let n := hopMismatches (s.lineCheck x.line) x.hops.values
      .next ((if 4 ≤ n then s.setWalker x.walker { w with struck := some x.line } else s).hopRecords x.hops.hop x.line n)
    else .next s

/-- SLUICE_POST (R242): a walker that waits with an entry posts it. -/
def execSluicePost (walker : Nat) (s : State) : Host.Outcome State Fault Refusal :=
  match s.walker walker with
  | none => .next s
  | some w =>
    match w.wait with
    | .post e terminal f =>
      if s.canPost walker w terminal then .next (s.postOrWait walker w e terminal f) else .next s
    | _ => .next s

/-! ### Hand-off (R248, R249) -/

/-- Every entry of the stack, lowest depth first: the spilled ones as the spill area holds them. -/
def State.wholeStack (s : State) (k : Nat) (w : Walker) : WRun (List StackEntry) :=
  let n := w.depth - w.stack.length
  if n = 0 then .ok w.stack
  else
    match s.walkerRead k w .read (w.slotOf 1) (16 * n) with
    | .error e => .error e
    | .ok bs => .ok (((List.range n).map fun i => StackEntry.ofBytes ((bs.drop (16 * i)).take 16)) ++ w.stack)

/-- The query record as a hand-off ships it. -/
def State.queryCopy (s : State) (k : Nat) (w : Walker) : WRun Line :=
  match w.shipped with
  | some h => .ok h.query
  | none =>
    match s.walkerRead k w .read w.query 64 with
    | .error e => .error e
    | .ok bs => .ok (lineOf bs)

/-- The query leaves for the partner card, once the link takes it: its walker is remote (R249, R273). `NODEREF` goes with it as it
is (R248, assumption 66). -/
def State.shipQuery (s : State) (k : Nat) (w : Walker) (named : WReg) : WRun (State × Walker) :=
  match s.wholeStack k w, s.queryCopy k w with
  | .error e, _ => .error e
  | _, .error e => .error e
  | .ok stack, .ok q =>
    let who := s.walkerWho k w
    let m : HandoffMsg :=
      { core := who.core, pav := who.pav, ctx := s.ctxField who.pav who.ctx 148 2, prog := w.prog.index, regs := w.w.toList,
        named := named, f := w.f, pc := w.pc, stack := stack, nodebuf := w.nodebuf, noderef := w.noderef, query := q,
        tag := w.tag, origin := w.uid }
    let read := 16 * (w.depth - w.stack.length) + (if w.shipped.isSome then 0 else 64)
    if s.pf.ualup then .ok ((s.countRead k w read).emit (.handoff m), { w with wait := .remote (w.reg named) }) else .error (.wait .link)

/-- HANDOFF_ARRIVAL (R248, R249): a query of the partner card enters the launch FIFO of the same logical core. The import checks
refuse one for a context that is not valid or a core that no hardware serves, and nothing else: no index, key or permission; one for
a full FIFO or a paused context waits with the link (R249 names no check; DESIGN CHOICE, assumption 38). -/
def execHandoffArrival (m : HandoffMsg) (s : State) : Host.Outcome State Fault Refusal :=
  let c := s.core m.core
  if !s.pf.ualup then .next s
  else if !s.ctxValid m.pav m.ctx ∨ (s.hostOf (m.core / 2)).isNone then .next (s.emit (.handoffRefused m.origin))
  else if 256 ≤ c.fifo.length ∨ s.paused m.pav m.ctx then .next s
  else
    let e : LaunchEntry := { query := 0, prog := m.prog, block := s.fresh, handoff := some m }
    .next (s.setCore m.core { c with fifo := c.fifo ++ [e] }).bump

/-- A terminal status (R244). -/
def terminalStatus (status : Nat) : Bool := status == 0 || decide (5 ≤ status)

/-- Write the copy of a query record back to the original record (R248). -/
def State.writeBack (s : State) (k : Nat) (w : Walker) (record : Line) : WRun (State × Walker) :=
  match w.shipped with
  | some h => .ok (s, { w with shipped := some { h with query := record } })
  | none => (s.walkerStores k w [(w.query, lineBytes record)]).map fun s => (s, w)

/-- The walker whose query has a number, wherever it runs now. -/
def State.walkerOf (s : State) (query : Nat) : Option (Nat × Walker) :=
  s.cores.findSome? fun c => (c.2.walkers.find? fun x => x.2.uid == query).map fun x => (c.1 * 64 + x.1, x.2)

/-- The query is saved by a pre-emption. -/
def State.walkerSaved (s : State) (query : Nat) : Bool :=
  s.pavs.any fun p => p.2.savedWork.walkers.any fun x => x.2.uid == query

/-- A query's record cannot be written back yet (R238, R419, R426). -/
def State.stopWriteBack (s : State) (k : Nat) (w : Walker) : WStop → State
  | .fault va kind =>
    let who := s.walkerWho k w
    if s.faultRing who.pav then
      (s.pendFault who.pav who.ctx who.core va kind (.walker k) 0).setWalker k { w with faulted := some s.fresh }
    else s.endWalker k w .illegal va
  | .fabric asks => s.askGroup (s.walkerWho k w) (.walker k) asks
  | .ended st p => s.endWalker k w st p
  | _ => s

/-- An entry of the partner card for a remote walker is posted; the last one after its query record is written back. -/
def State.remoteEntry (s : State) (k : Nat) (w : Walker) (status : Nat) (payload : DWord) (record : Line) : State :=
  let terminal := terminalStatus status
  let e : SluiceEntry := { tag := w.tag, status := status, payload := payload }
  let asking := s.fabric.any fun r => r.unit == .walker k
  if w.faulted.isSome ∨ asking ∨ !s.canPost k w terminal then s
  else match (if terminal then s.writeBack k w record else .ok (s, w)) with
    | .error x => s.stopWriteBack k w x
    | .ok (s, w) => (s.setWalker k w).postEntry k w e terminal

/-- REMOTE_ENTRY_ARRIVAL (R248, R249, R424): an entry for a remote query is posted, or waits with the link until it can be; one for
a query that has ended is discarded and logged in the pavilion of its context. -/
def execRemoteEntryArrival (query : Nat) (status : Nat) (payload : DWord) (record : Line) (s : State) :
    Host.Outcome State Fault Refusal :=
  let late (s : State) : State :=
    match s.ended.find? fun x => x.1 == query with
    | some (_, pav, ctx) => s.ingressFailure 7 0 pav ctx 0
    | none => s.ingressFailure 7 0 0 0 0
  match s.walkerOf query with
  | none => .next (if s.walkerSaved query then s else late s)
  | some (k, w) => .next (if w.isRemote then s.remoteEntry k w status payload record else late s)

/-- REMOTE_WALKER_TIMEOUT (R249): the partner is lost or refused the query. -/
def execRemoteWalkerTimeout (walker : Nat) (s : State) : Host.Outcome State Fault Refusal :=
  match s.walker walker with
  | none => .next s
  | some w =>
    match w.wait with
    | .remote ref => .next (s.endWalker walker w .fabric ref)
    | _ => .next s

/-! ### Words that are no instruction (R255) -/

/-- GTS_ILLEGAL_WORD (R255). -/
def execGtsIllegalWord (_x : Word) (s : State) : Host.Outcome State Fault Refusal := runOwn s fun w => w.illegal

end Sys2Proof.Machine
end

