-- ==== Sys2Proof/Machine/Gts.lean ====
section
/-! DEFINITION. The Gyrix traversal set (R246, R248, R258 to R273): one meaning per instruction, each one walker step. -/

namespace Sys2Proof.Machine

/-! ### Nodes (R258) -/

/-- NODEBUF with the bytes of a node in it; the bytes past the node stay. -/
def intoNodebuf (old bs : List Byte) : List Byte := bs ++ (old ++ List.replicate (256 - old.length) 0).drop bs.length

/-- NFETCH (R237, R238, R258): each line is translated on its own. -/
def execNfetch (a : WReg) (s : State) : Host.Outcome State Fault Refusal :=
  runWalker s fun s w =>
    let r := w.reg a
    let d := w.decoder (refDec r)
    if r = 0 ∨ !refOk w.prog.ndec r then endQuery .nodeMalformed r
    else if refCard r = 1 then endQuery .fabric r
    else if 2 < d.size then endQuery .nodeMalformed r
    else
      match s.walkerRead s.curWalker w .read (BitVec.ofNat 64 (refAddr r)) d.bytes with
      | .error e => .error e
      | .ok bs => .ok (s.countRead s.curWalker w d.bytes, { w with nodebuf := intoNodebuf w.nodebuf bs, noderef := r })

/-- NDEC (R258). -/
def execNdec (d : WReg) (s : State) : Host.Outcome State Fault Refusal :=
  runOwn s fun w =>
    match w.node with
    | .error e => .error e
    | .ok n => .ok ((w.setReg d (BitVec.ofNat 64 n.entries)).setF (decide (n.entries ≠ 0)))

/-- NFIELD (R258). -/
def execNfield (d a : WReg) (k : BitVec 14) (s : State) : Host.Outcome State Fault Refusal :=
  runOwn s fun w =>
    let i := (k.toNat + (w.reg a).toNat % 16) % 16
    if 15 < k.toNat then w.illegal
    else
      match w.node with
      | .error e => .error e
      | .ok n => if n.d.count ≤ i then w.illegal else .ok (w.setReg d (n.value i))

/-- NCHILD (R258). -/
def execNchild (d a : WReg) (s : State) : Host.Outcome State Fault Refusal :=
  runOwn s fun w =>
    match w.node with
    | .error e => .error e
    | .ok n =>
      let c := n.child ((w.reg a).toNat % 256)
      .ok ((w.setReg d c).setF (decide (c ≠ 0)))

/-- LDN (R258). -/
def execLdn (d a : WReg) (k : BitVec 14) (s : State) : Host.Outcome State Fault Refusal :=
  runWalker s fun s w =>
    let x := w.reg a
    if x.extractLsb' 48 16 ≠ 0 ∨ x.extractLsb' 0 3 ≠ 0 then w.illegal
    else
      match s.walkerRead s.curWalker w .read (x + 8 * zext64 k) 8 with
      | .error e => .error e
      | .ok bs => .ok (s.countRead s.curWalker w 8, w.setReg d (BitVec.ofNat 64 (leNat bs)))

/-! ### Tests (R259 to R263) -/

/-- Four registers from `a` on. -/
def Walker.rayRegs (w : Walker) (a : WReg) : List DWord := (List.range 4).map fun i => w.reg (a + BitVec.ofNat 4 i)

/-- The hits of R261: box number and tnear. -/
def boxHits (ray : Option Ray) (boxes : List (Nat × List (Option XR))) : List (Nat × XR) :=
  match ray with
  | none => []
  | some r => boxes.filterMap fun b => (r.box b.2).map fun t => (b.1, t)

/-- The nearest hit, the lowest number on ties. -/
def nearest : List (Nat × XR) → Option (Nat × XR)
  | [] => none
  | h :: t =>
    match nearest t with
    | none => some h
    | some n => if n.2.lt h.2 then some n else some h

/-- BOXT (R259 to R261). A tnear that is zero is written as +0, also where tmin is −0 (DESIGN CHOICE, assumption 78). -/
def execBoxt (d a : WReg) (s : State) : Host.Outcome State Fault Refusal :=
  runOwn s fun w =>
    if 12 < a.toNat then w.illegal
    else
      match w.node with
      | .error e => .error e
      | .ok n =>
        match n.boxes with
        | none => w.lacking
        | some boxes =>
          let hits := boxHits (Ray.of (w.rayRegs a)) boxes
          let mask := (hits.map fun h => 2 ^ h.1).foldl (· + ·) 0
          let best := nearest hits
          let m := (best.map fun h => h.1).getD 0
          let t := (best.map fun h => h.2.round 0).getD 0
          .ok ((w.setReg d (BitVec.ofNat 64 (mask + m * 2 ^ 8 + t * 2 ^ 32))).setF (decide (mask ≠ 0)))

/-- TRIT (R259, R260, R262). -/
def execTrit (d a : WReg) (s : State) : Host.Outcome State Fault Refusal :=
  runOwn s fun w =>
    if 12 < a.toNat ∨ 14 < d.toNat then w.illegal
    else
      match w.node with
      | .error e => .error e
      | .ok n =>
        match n.triangle with
        | none => w.lacking
        | some v =>
          match (Ray.of (w.rayRegs a)).bind fun r => r.triangle (v.map XR.f32) with
          | none => .ok (w.setF false)
          | some (t, u, x) =>
            .ok (((w.setReg d (BitVec.ofNat 64 (t.round 0 + u.round 0 * 2 ^ 32))).setReg (d + 1)
              (BitVec.ofNat 64 (x.round 0))).setF true)

/-- FRUST (R259, R263). -/
def execFrust (d a : WReg) (s : State) : Host.Outcome State Fault Refusal :=
  runWalker s fun s w =>
    match w.node with
    | .error e => .error e
    | .ok n =>
      match n.boxes with
      | none => w.lacking
      | some boxes =>
        if (w.reg a).toNat % 64 ≠ 0 then w.illegal
        else
          match s.walkerRead s.curWalker w .read (w.reg a) 96 with
          | .error e => .error e
          | .ok bs =>
            let planes := (List.range 6).map fun j => (List.range 4).map fun i => XR.f32 (leNat ((bs.drop (16 * j + 4 * i)).take 4))
            let cls := boxes.map fun b => (b.1, frustClass planes b.2)
            let x := (cls.map fun c => c.2 * 4 ^ c.1).foldl (· + ·) 0
            .ok (s.countRead s.curWalker w 96, (w.setReg d (BitVec.ofNat 64 x)).setF (decide (x ≠ 0)))

/-! ### Keys (R264, R265) -/

/-- The valid keys of the node, and x and y as keys of the same signedness: that of the first KEY, and unsigned in a node that has
none (DESIGN CHOICE, assumption 77). -/
def Walker.keyTest (w : Walker) (x y : DWord) : WRun (List Int × Int × Int) :=
  match w.node with
  | .error e => .error e
  | .ok n =>
    match n.keys with
    | none => w.lacking
    | some ks =>
      let sg := ((n.d.fields.find? fun f => f.kind == 6).map NodeField.signed).getD false
      let v (z : DWord) : Int := if sg then (loWord z).toInt else (loWord z).toNat
      .ok (ks, v x, v y)

/-- KCMP (R264). -/
def execKcmp (d a : WReg) (mode : BitVec 1) (s : State) : Host.Outcome State Fault Refusal :=
  runOwn s fun w =>
    match w.keyTest (w.reg a) 0 with
    | .error e => .error e
    | .ok (ks, x, _) =>
      let n := (ks.filter fun k => if mode = 0 then decide (k < x) else decide (k ≤ x)).length
      .ok ((w.setReg d (BitVec.ofNat 64 n)).setF (ks.contains x))

/-- KRANGE (R265). -/
def execKrange (d a b : WReg) (s : State) : Host.Outcome State Fault Refusal :=
  runOwn s fun w =>
    match w.keyTest (w.reg a) (w.reg b) with
    | .error e => .error e
    | .ok (ks, lo, hi) =>
      let c := ks.length
      let key (i : Nat) : Int := (ks[i]?).getD 0
      let inRange := ((List.range c).filter fun k => decide (lo ≤ key k) && decide (key k ≤ hi)).map fun k => 2 ^ k
      let child := ((List.range (c + 1)).filter fun i =>
        (decide (i = 0) || decide (key (i - 1) ≤ hi)) && (decide (i = c) || decide (lo ≤ key i))).map fun i => 2 ^ (32 + i)
      let x := if hi < lo then 0 else (inRange ++ child).foldl (· + ·) 0
      .ok ((w.setReg d (BitVec.ofNat 64 x)).setF (decide (x ≠ 0)))

/-! ### Distances (R266, R267) -/

/-- The elements of a bf16 vector as dyadic numbers; none where one is not finite. -/
def bf16Vector (bs : List Byte) (n : Nat) : Option (List (Int × Int)) :=
  (List.range n).mapM fun i =>
    match ETy.bf16.fmt.decode (leNat ((bs.drop (2 * i)).take 2)) with
    | .num neg m e => some (signed neg m, e)
    | _ => none

/-- The distance of R266 as an f32 pattern. -/
def distance (metric : BitVec 2) (q c : Option (List (Int × Int))) : Nat :=
  match q, c with
  | some q, some c =>
    let term (x y : Int × Int) : Int × Int :=
      if metric = 0 then (let d := sumDyadic [x, (-y.1, y.2)]; (d.1 * d.1, 2 * d.2)) else (-(x.1 * y.1), x.2 + y.2)
    ETy.f32.fmt.round 0 0 (ofDyadic (sumDyadic (q.zipWith term c)) false)
  | _, _ => ETy.f32.fmt.canon

/-- DIST (R266). -/
def execDist (d a b : WReg) (metric : BitVec 2) (dims : BitVec 12) (s : State) : Host.Outcome State Fault Refusal :=
  runWalker s fun s w =>
    let n := dims.toNat
    if 2 ≤ metric.toNat ∨ n = 0 ∨ (w.reg a).getLsbD 0 ∨ (w.reg b).getLsbD 0 then w.illegal
    else
      match s.walkerRead s.curWalker w .read (w.reg a) (2 * n), s.walkerRead s.curWalker w .read (w.reg b) (2 * n) with
      | .error e, _ => .error e
      | _, .error e => .error e
      | .ok q, .ok c => .ok (s.countRead s.curWalker w (4 * n), w.setReg d (BitVec.ofNat 64 (distance metric (bf16Vector q n) (bf16Vector c n))))

/-- A list entry: id and distance pattern. -/
abbrev NearEntry := Nat × Nat

/-- Distance order with a NaN above every number: less, or equal. -/
def distOrder (a b : Nat) : Option Bool :=
  match ETy.f32.fmt.decode a, ETy.f32.fmt.decode b with
  | .nan, .nan => some true
  | .nan, _ => none
  | _, .nan => some false
  | x, y =>
    match cmpF x y with
    | some c => if c < 0 then some false else if c = 0 then some true else none
    | none => none

/-- A candidate stands before an entry: by distance, then by id. -/
def stands (c e : NearEntry) : Bool :=
  match distOrder c.2 e.2 with
  | some eq => !eq || decide (c.1 < e.1)
  | none => false

/-- Insert before the first entry that the candidate stands before: how many entries stay, and the list. -/
def insertNear (c : NearEntry) : List NearEntry → Nat × List NearEntry
  | [] => (0, [c])
  | e :: t => if stands c e then (0, c :: e :: t) else let r := insertNear c t; (r.1 + 1, e :: r.2)

/-- The outcome of R267: the new list and the number of leading entries that keep their places; none where nothing is
inserted. -/
def topkInsert (k : Nat) (l : List NearEntry) (c : NearEntry) : Option (Nat × List NearEntry) :=
  match ETy.f32.fmt.decode c.2 with
  | .nan => none
  | _ =>
    if l.any fun e => e.1 == c.1 then none
    else if l.length < k then some (insertNear c l)
    else
      match l.getLast? with
      | some last => if stands c last then some (insertNear c l.dropLast) else none
      | none => none

/-- TOPK (R267): the list's reads and writes happen as the step retires. -/
def execTopk (d a b : WReg) (s : State) : Host.Outcome State Fault Refusal :=
  runWalker s fun s w =>
    let base := w.reg a
    let cand : NearEntry := ((loWord (w.reg b)).toNat, (loWord (w.reg d)).toNat)
    if base.toNat % 8 ≠ 0 then w.illegal
    else
      match s.walkerRead s.curWalker w .read base 8 with
      | .error e => .error e
      | .ok head =>
        let n := leNat (head.take 2)
        let k := leNat ((head.drop 2).take 2)
        if k = 0 ∨ 32 < k ∨ k < n then w.illegal
        else
          match (if n = 0 then .ok [] else s.walkerRead s.curWalker w .read (base + 8) (8 * n)) with
          | .error e => .error e
          | .ok bs =>
            let entries := (List.range n).map fun i =>
              (leNat ((bs.drop (8 * i)).take 4), leNat ((bs.drop (8 * i + 4)).take 4))
            let answer (l : List NearEntry) : DWord :=
              if l.length = k then BitVec.ofNat 64 ((l.getLast?.map fun e => e.2).getD 0) else 0x7F800000
            let s := s.countRead s.curWalker w (8 + 8 * n)
            match topkInsert k entries cand with
            | none => .ok (s, (w.setReg d (answer entries)).setF false)
            | some (stay, l) =>
              let out := (l.drop stay).flatMap fun e => leBytes e.1 4 ++ leBytes e.2 4
              match s.walkerStores s.curWalker w
                  [(base + BitVec.ofNat 64 (8 + 8 * stay), out), (base, leBytes l.length 2)] with
              | .error e => .error e
              | .ok s => .ok (s, (w.setReg d (answer l)).setF true)

/-! ### The stack (R268) -/

/-- PUSH. -/
def execPush (a b : WReg) (s : State) : Host.Outcome State Fault Refusal :=
  runWalker s fun s w => s.push s.curWalker w [{ ref := w.reg a, key := loWord (w.reg b), aux := hiWord (w.reg b) }]

/-- PUSHM. -/
def execPushm (a b : WReg) (order : BitVec 1) (s : State) : Host.Outcome State Fault Refusal :=
  runWalker s fun s w =>
    match w.node with
    | .error e => .error e
    | .ok n =>
      let ms := (List.range 16).filter fun m => (w.reg a).getLsbD m && decide (n.child m ≠ 0)
      let l := (if order = 0 then ms.reverse else ms).map fun m =>
        { ref := n.child m, key := loWord (w.reg b), aux := BitVec.ofNat 32 m : StackEntry }
      s.push s.curWalker (w.setF (!l.isEmpty)) l

/-- POP. -/
def execPop (d : WReg) (s : State) : Host.Outcome State Fault Refusal :=
  runWalker s fun s w =>
    if 14 < d.toNat then w.illegal
    else
      match s.pop s.curWalker w with
      | .error e => .error e
      | .ok (s, none) => .ok (s, w.setF false)
      | .ok (s, some (e, w)) => .ok (s, ((w.setReg d e.ref).setReg (d + 1) (joinWords e.key e.aux)).setF true)

/-- STKD. -/
def execStkd (d : WReg) (s : State) : Host.Outcome State Fault Refusal :=
  runOwn s fun w => .ok (w.setReg d (BitVec.ofNat 64 w.depth))

/-! ### The query record (R269) -/

/-- The limits on k and width. -/
def argOk (width : BitVec 1) (k : BitVec 4) : Bool :=
  if width = 0 then decide (k.toNat ≤ 9) else decide (k.toNat % 2 = 0) && decide (k.toNat ≤ 8)
/-- Bytes of the access. -/
def argBytes (width : BitVec 1) : Nat := if width = 0 then 4 else 8

/-- LDQ. -/
def execLdq (d : WReg) (width : BitVec 1) (k : BitVec 4) (s : State) : Host.Outcome State Fault Refusal :=
  runWalker s fun s w =>
    let off := 16 + 4 * k.toNat
    if !argOk width k then w.illegal
    else
      match w.shipped with
      | some h => .ok (s, w.setReg d (BitVec.ofNat 64 (lineField h.query off (argBytes width))))
      | none =>
        match s.walkerRead s.curWalker w .read (w.query + BitVec.ofNat 64 off) (argBytes width) with
        | .error e => .error e
        | .ok bs => .ok (s.countRead s.curWalker w (argBytes width), w.setReg d (BitVec.ofNat 64 (leNat bs)))

/-- STQ. -/
def execStq (a : WReg) (width : BitVec 1) (k : BitVec 4) (s : State) : Host.Outcome State Fault Refusal :=
  runWalker s fun s w =>
    let off := 16 + 4 * k.toNat
    if !argOk width k then w.illegal
    else
      match w.shipped with
      | some h => .ok (s, { w with shipped := some { h with query := lineSet h.query off (argBytes width) (w.reg a).toNat } })
      | none =>
        match s.walkerStores s.curWalker w [(w.query + BitVec.ofNat 64 off, leBytes (w.reg a).toNat (argBytes width))] with
        | .error e => .error e
        | .ok s => .ok (s, w)

/-! ### Integer arithmetic (R270) -/

/-- wd from two operands. -/
def walkerAlu (d : WReg) (s : State) (f : Walker → DWord) : Host.Outcome State Fault Refusal :=
  runOwn s fun w => .ok (w.setReg d (f w))

/-- Shift left by the low 6 bits of the operand. -/
def gtsShiftLeft (x y : DWord) : DWord := x <<< (y.toNat % 64)
/-- Logical shift right by the low 6 bits of the operand. -/
def gtsShiftRight (x y : DWord) : DWord := x >>> (y.toNat % 64)

/-- ADD. -/
def execGtsAdd (d a b : WReg) (s : State) : Host.Outcome State Fault Refusal := walkerAlu d s fun w => w.reg a + w.reg b
/-- ADD, immediate. -/
def execGtsAddImm (d a : WReg) (imm : BitVec 13) (s : State) : Host.Outcome State Fault Refusal :=
  walkerAlu d s fun w => w.reg a + sext64 imm
/-- SUB. -/
def execGtsSub (d a b : WReg) (s : State) : Host.Outcome State Fault Refusal := walkerAlu d s fun w => w.reg a - w.reg b
/-- SUB, immediate. -/
def execGtsSubImm (d a : WReg) (imm : BitVec 13) (s : State) : Host.Outcome State Fault Refusal :=
  walkerAlu d s fun w => w.reg a - sext64 imm
/-- MUL. -/
def execGtsMul (d a b : WReg) (s : State) : Host.Outcome State Fault Refusal := walkerAlu d s fun w => w.reg a * w.reg b
/-- MUL, immediate. -/
def execGtsMulImm (d a : WReg) (imm : BitVec 13) (s : State) : Host.Outcome State Fault Refusal :=
  walkerAlu d s fun w => w.reg a * sext64 imm
/-- AND. -/
def execGtsAnd (d a b : WReg) (s : State) : Host.Outcome State Fault Refusal := walkerAlu d s fun w => w.reg a &&& w.reg b
/-- AND, immediate. -/
def execGtsAndImm (d a : WReg) (imm : BitVec 13) (s : State) : Host.Outcome State Fault Refusal :=
  walkerAlu d s fun w => w.reg a &&& sext64 imm
/-- OR. -/
def execGtsOr (d a b : WReg) (s : State) : Host.Outcome State Fault Refusal := walkerAlu d s fun w => w.reg a ||| w.reg b
/-- OR, immediate. -/
def execGtsOrImm (d a : WReg) (imm : BitVec 13) (s : State) : Host.Outcome State Fault Refusal :=
  walkerAlu d s fun w => w.reg a ||| sext64 imm
/-- XOR. -/
def execGtsXor (d a b : WReg) (s : State) : Host.Outcome State Fault Refusal := walkerAlu d s fun w => w.reg a ^^^ w.reg b
/-- XOR, immediate. -/
def execGtsXorImm (d a : WReg) (imm : BitVec 13) (s : State) : Host.Outcome State Fault Refusal :=
  walkerAlu d s fun w => w.reg a ^^^ sext64 imm
/-- SHL. -/
def execGtsShl (d a b : WReg) (s : State) : Host.Outcome State Fault Refusal :=
  walkerAlu d s fun w => gtsShiftLeft (w.reg a) (w.reg b)
/-- SHL, immediate. -/
def execGtsShlImm (d a : WReg) (imm : BitVec 13) (s : State) : Host.Outcome State Fault Refusal :=
  walkerAlu d s fun w => gtsShiftLeft (w.reg a) (sext64 imm)
/-- SHR. -/
def execGtsShr (d a b : WReg) (s : State) : Host.Outcome State Fault Refusal :=
  walkerAlu d s fun w => gtsShiftRight (w.reg a) (w.reg b)
/-- SHR, immediate. -/
def execGtsShrImm (d a : WReg) (imm : BitVec 13) (s : State) : Host.Outcome State Fault Refusal :=
  walkerAlu d s fun w => gtsShiftRight (w.reg a) (sext64 imm)
/-- MOV. -/
def execGtsMov (d a : WReg) (s : State) : Host.Outcome State Fault Refusal := walkerAlu d s fun w => w.reg a
/-- LDI. -/
def execGtsLdi (d : WReg) (imm : BitVec 14) (s : State) : Host.Outcome State Fault Refusal := walkerAlu d s fun _ => sext64 imm

/-! ### Compares and jumps (R271, R272) -/

/-- f32 order of the low halves: less, or at most; a NaN gives false. -/
def lowF32 (orEqual : Bool) (x y : DWord) : Bool :=
  match cmpF (ETy.f32.fmt.decode (loWord x).toNat) (ETy.f32.fmt.decode (loWord y).toNat) with
  | some c => decide (c < 0) || (orEqual && decide (c = 0))
  | none => false

/-- The conditions of R271. -/
def gtsCond (cond : BitVec 3) (x y : DWord) : Bool :=
  match cond.toNat with
  | 0 => x == y
  | 1 => x != y
  | 2 => x.slt y
  | 3 => x.sle y
  | 4 => x.ult y
  | 5 => x.ule y
  | 6 => lowF32 false x y
  | _ => lowF32 true x y

/-- CMP (R271). -/
def execGtsCmp (a b : WReg) (cond : BitVec 3) (s : State) : Host.Outcome State Fault Refusal :=
  runOwn s fun w => .ok (w.setF (gtsCond cond (w.reg a) (w.reg b)))

/-- A jump from the word that `pc` stands past. -/
def Walker.jump (w : Walker) (off : BitVec 14) : Walker := { w with pc := w.pc - 4 + sext64 off * 4 }

/-- J (R272). -/
def execJump (off : BitVec 14) (s : State) : Host.Outcome State Fault Refusal := runOwn s fun w => .ok (w.jump off)
/-- JF (R272). -/
def execJumpF (off : BitVec 14) (s : State) : Host.Outcome State Fault Refusal :=
  runOwn s fun w => .ok (if w.f then w.jump off else w)
/-- JNF (R272). -/
def execJumpNF (off : BitVec 14) (s : State) : Host.Outcome State Fault Refusal :=
  runOwn s fun w => .ok (if w.f then w else w.jump off)

/-! ### Results and hand-over (R246 to R248, R273) -/

/-- EMIT. -/
def execEmit (a : WReg) (s : State) : Host.Outcome State Fault Refusal :=
  runOwn s fun w => .error (.post .emit (w.reg a) false w.f)

/-- HOOK (R246). -/
def execHook (a : WReg) (k : BitVec 14) (s : State) : Host.Outcome State Fault Refusal :=
  runWalker s fun s w =>
    let x := loWord (w.reg a) + k.setWidth 32
    let rec_ := w.prog.hookBase + 64 * zext64 x
    if w.prog.hookCount.ule x then .error (.post .tableRange (zext64 x) false false)
    else
      match s.walkerRead s.curWalker w .read rec_ 8 with
      | .error e => .error e
      | .ok bs => .error (if leNat bs = 0 then .post .nullRecord rec_ false false 8 else .post .hook rec_ false true 8)

/-- DONE. -/
def execDone (a : WReg) (s : State) : Host.Outcome State Fault Refusal :=
  runOwn s fun w => .error (.post .done (w.reg a) true w.f)

/-- COVER (R247, R273, R389 to R391). -/
def execCover (a b : WReg) (s : State) : Host.Outcome State Fault Refusal :=
  runWalker s fun s w =>
    match w.node with
    | .error e => .error e
    | .ok n =>
      match n.triangle with
      | none => w.lacking
      | some c =>
        if (w.reg b).toNat % 64 ≠ 0 then w.illegal
        else
          match s.walkerRead s.curWalker w .read (w.reg b) 64 with
          | .error e => .error e
          | .ok bs =>
            let v := lineOf bs
            let who := s.walkerWho s.curWalker w
            let t : Triangle :=
              { pav := who.pav, ctx := who.ctx, core := who.core, stream := w.uid, token := 0, query := some w.uid,
                view := w.reg b, viewRec := v, prim := loWord (w.reg a), verts := viewTransform v c }
            let dies := triangleDies v t.verts
            if !viewOk v then w.illegal
            else if !s.coverRoom dies then .error (.wait (.cover dies))
            else .ok ((s.countRead s.curWalker w 64).sendTriangle t, { w with covers := w.covers + dies.length })

/-- HANDOFF (R248, R273). -/
def execHandoff (a : WReg) (s : State) : Host.Outcome State Fault Refusal :=
  runWalker s fun s w =>
    if !refOk w.prog.ndec (w.reg a) ∨ refCard (w.reg a) ≠ 1 then w.illegal else s.shipQuery s.curWalker w a

end Sys2Proof.Machine
end

