-- ==== Sys2Proof/Machine/Sampler.lean ====
section
/-! DEFINITION. The sampler (R373 to R386): LOD resources, the fallback chain, the filter microcode, LDLOD, SAMPLE and the
feedback ring. -/

namespace Sys2Proof.Machine

/-! ### Resources (R373, R374) -/

/-- An LOD resource: RESID, type, level-0 size, the map, and TILEBASE and MAPOFF of each level. -/
structure Lod where
  resid : Nat
  ty : ETy
  width : Nat
  height : Nat
  resmap : Nat
  levels : List (Nat × Nat)

/-- NLEV. -/
def Lod.count (r : Lod) : Nat := r.levels.length
/-- W_l. -/
def Lod.w (r : Lod) (l : Nat) : Nat := Nat.max 1 (r.width / 2 ^ l)
/-- H_l. -/
def Lod.h (r : Lod) (l : Nat) : Nat := Nat.max 1 (r.height / 2 ^ l)
/-- TW. -/
def Lod.tw (r : Lod) : Nat := match r.ty.width with | 4 => 512 | 32 => 128 | _ => 256
/-- TH. -/
def Lod.th (r : Lod) : Nat := match r.ty.width with | 8 => 256 | 4 => 256 | _ => 128
/-- TX_l. -/
def Lod.tx (r : Lod) (l : Nat) : Nat := (r.w l + r.tw - 1) / r.tw
/-- The tile of a texel. -/
def Lod.tile (r : Lod) (x y : Nat) : Nat × Nat := (x / r.tw, y / r.th)
/-- The number of a tile in its level. -/
def Lod.tileIndex (r : Lod) (l : Nat) (t : Nat × Nat) : Nat := t.2 * r.tx l + t.1
/-- The residency bit of a tile. -/
def Lod.bit (r : Lod) (l : Nat) (t : Nat × Nat) : Nat := ((r.levels[l]?.map fun x => x.2).getD 0) + r.tileIndex l t
/-- Bits before a texel in its level's memory. -/
def Lod.texelBit (r : Lod) (l x y : Nat) : Nat :=
  r.tileIndex l (r.tile x y) * 524288 + (y % r.th * r.tw + x % r.tw) * r.ty.width
/-- Address of the first byte of a texel. -/
def Lod.texelAddr (r : Lod) (l x y : Nat) : Nat := ((r.levels[l]?.map fun t => t.1).getD 0) + r.texelBit l x y / 8

/-! ### Accesses of a lookup -/

/-- What a lookup has read so far and what it found; none once an access fails. -/
structure Probe (α : Type) where
  accesses : List LaneAccess
  value : Option α

/-- A value that needs no access. -/
def Probe.pure {α : Type} (a : α) : Probe α := { accesses := [], value := some a }

/-- Go on with what was found. -/
def Probe.bind {α β : Type} (p : Probe α) (f : α → Probe β) : Probe β :=
  match p.value with
  | none => { accesses := p.accesses, value := none }
  | some a => let q := f a; { accesses := p.accesses ++ q.accesses, value := q.value }

/-- Read `n` bytes for a lane; a byte that has not come, comes with a fault response or is poisoned gives nothing to go on with. -/
def State.probe (s : State) (w : Wave) (who : Who) (lane va n : Nat) : Probe Nat :=
  let at_ := BitVec.ofNat 64 va
  let a : LaneAccess := { lane := lane, va := at_, spans := (s.check who .read false at_ n).map (withReplies w.answers .read lane) }
  { accesses := [a],
    value :=
      if a.fail.isSome ∨ a.ok.any (fun x => x.partner && (x.reply.isNone || replyFault x.reply)) ∨ s.lanePoisoned a then none
      else some (leNat (s.laneBytes w a)) }

/-- A lane of a wave that reads. -/
structure Reader where
  s : State
  w : Wave
  who : Who
  lane : Nat

/-- Whether a tile is resident, and the memory key of the byte that holds its bit (R374, R375). -/
def Reader.resident (q : Reader) (r : Lod) (l : Nat) (t : Nat × Nat) : Probe (Bool × Nat) :=
  let b := r.bit l t
  let va := r.resmap + b / 8
  let key := match q.s.resolve q.who .read false va 1 with | .ok (x :: _) => x.key | _ => 0
  (q.s.probe q.w q.who q.lane va 1).bind fun x => .pure (x / 2 ^ (b % 8) % 2 == 1, key)

/-- A texel's bits. -/
def Reader.texel (q : Reader) (r : Lod) (l x y : Nat) : Probe Nat :=
  (q.s.probe q.w q.who q.lane (r.texelAddr l x y) (Nat.max 1 (r.ty.width / 8))).bind fun v =>
    .pure (v / 2 ^ (r.texelBit l x y % 8) % 2 ^ r.ty.width)

/-- The log of a tile that was wanted and is not resident. -/
def Reader.log (q : Reader) (r : Lod) (wanted : Nat) (t : Nat × Nat) (level key : Nat) : LookupLog :=
  { core := q.who.core, pav := q.who.pav, ctx := q.who.ctx, resid := BitVec.ofNat 32 r.resid, wanted := wanted, tx := t.1,
    ty := t.2, level := level, bitKey := key }

/-! ### The fallback chain (R376) -/

/-- The levels from `l` on, `n` of them: the first whose tile is resident. -/
def Reader.chain (q : Reader) (r : Lod) (w x y : Nat) : Nat → Nat → Probe (Option Nat)
  | 0, _ => .pure none
  | n + 1, l =>
    (q.resident r l (r.tile (x / 2 ^ (l - w)) (y / 2 ^ (l - w)))).bind fun b =>
      if b.1 then .pure (some l) else q.chain r w x y n (l + 1)

/-- A lookup: CODE, LEVEL and what it logs. -/
def Reader.resolve (q : Reader) (r : Lod) (x y w : Nat) : Probe (Nat × Nat × Option LookupLog) :=
  if r.count ≤ w ∨ r.w w ≤ x ∨ r.h w ≤ y then .pure (3, 0, none)
  else
    (q.resident r w (r.tile x y)).bind fun b =>
      (q.chain r w x y (r.count - w) w).bind fun found =>
        match found with
        | some l => .pure (if l = w then 0 else 1, l, if l = w then none else some (q.log r w (r.tile x y) l b.2))
        | none => .pure (2, r.count - 1, some (q.log r w (r.tile x y) (r.count - 1) b.2))

/-! ### Logs (R379) -/

/-- A log passes the core's duplicate filter, or is discarded. -/
def State.logLookup (s : State) (x : LookupLog) : State :=
  let same (f : LookupLog) : Bool := f.core == x.core && f.resid == x.resid && f.wanted == x.wanted && f.tx == x.tx && f.ty == x.ty
  if s.filters.any same then s
  else
    let own := x :: s.filters.filter fun f => f.core == x.core
    { s with filters := own.take 32 ++ (s.filters.filter fun f => f.core != x.core), logs := s.logs ++ [x] }

/-- A log reaches its pavilion's ring (R378, R379). -/
def State.postLog (s : State) (x : LookupLog) : State :=
  let base := (s.pav x.pav).fbring.toNat
  let s := { s with logs := s.logs.erase x }
  match s.ringCount base 16 with
  | some _ =>
    s.ringPost base 16 (leBytes x.resid.toNat 4 ++ leBytes x.wanted 1 ++ leBytes x.level 1 ++ leBytes x.core 2
      ++ leBytes x.tx 2 ++ leBytes x.ty 2 ++ leBytes 0 4)
  | none =>
    if base = 0 ∨ 0x2000000000 < base + 64 then s
    else s.devWrite (base + 8) 4 (s.devRead (base + 8) 4 + 1)

/-- FEEDBACK_LOG (R379): the oldest log of a pavilion reaches its ring. -/
def execFeedbackLog (pav : Nat) (s : State) : Host.Outcome State Fault Refusal :=
  match s.logs.find? fun x => x.pav == pav with
  | none => .next s
  | some x => .next (s.postLog x)

/-- Count sampler requests (R440): one for each lane that looks up. -/
def State.countRequests (s : State) (w : Wave) (n : Nat) : State :=
  let who := s.whoOf s.cur w
  s.count who.core who.pav who.ctx 8 n

/-! ### Descriptors (R373, R384, R385) -/

/-- Read a descriptor of 64 bytes: its window, its alignment, then its bytes (R384 checks 1 and 2). -/
def State.readDescriptor (s : State) (w : Wave) (va : DWord) : Run Line :=
  if globalEnd ≤ va.toNat then trapAt .accessViolation 0 va
  else if va.toNat % 64 ≠ 0 then trapAt .align 0 va
  else
    match s.oneAccess w (s.whoOf s.cur w) .read false false 32 va 64 with
    | .error e => .error e
    | .ok l => .ok (lineOf (s.readOne w l))

/-- The rules of R373 on the descriptor. -/
def lodOk (d : Line) : Bool :=
  decide (lineField d 0 8 % 16 = 0) && decide (lineField d 8 8 % 8 = 0)
    && [0, 1, 2, 3, 4, 5, 8, 9, 10, 12, 13, 14].contains (lineField d 20 1)
    && decide (1 ≤ lineField d 21 1) && decide (lineField d 21 1 ≤ 16) && decide (lineField d 22 2 = 0)
    && decide (1 ≤ lineField d 24 2) && decide (lineField d 24 2 ≤ 16384) && decide (1 ≤ lineField d 26 2)
    && decide (lineField d 26 2 ≤ 16384) && decide (lineField d 28 36 = 0)

/-- Read a resource: descriptor and level table. -/
def State.readLod (s : State) (w : Wave) (va : DWord) : Run Lod :=
  match s.readDescriptor w va with
  | .error e => .error e
  | .ok d =>
    let n := lineField d 21 1
    let table := BitVec.ofNat 64 (lineField d 0 8)
    if !lodOk d then trapAt .illegalOperand 0 va
    else
      match s.oneAccess w (s.whoOf s.cur w) .read false false 32 table (16 * n) with
      | .error e => .error e
      | .ok l =>
        let bs := s.readOne w l
        let f (k o m : Nat) : Nat := leNat ((bs.drop (16 * k + o)).take m)
        match (List.range n).find? fun k => decide (f k 0 8 % 65536 ≠ 0) || decide (f k 12 4 ≠ 0) with
        | some k => trapAt .illegalOperand 0 (table + BitVec.ofNat 64 (16 * k))
        | none =>
          .ok { resid := lineField d 16 4, ty := ETy.ofCode (BitVec.ofNat 4 (lineField d 20 1)), width := lineField d 24 2,
                height := lineField d 26 2, resmap := lineField d 8 8, levels := (List.range n).map fun k => (f k 0 8, f k 8 4) }

/-! ### Lookups of the lanes -/

/-- Run a lookup for each lane in order, with all their accesses checked by R152; the values by lane and the logs. -/
def State.lookups {α : Type} (s : State) (w : Wave) (lanes : List Nat) (f : Reader → Probe (α × List LookupLog)) :
    Run (List (Nat × α) × List LookupLog) :=
  let who := s.whoOf s.cur w
  let ps := lanes.map fun i => (i, f { s := s, w := w, who := who, lane := i })
  match s.admitLanes w .read false (ps.flatMap fun p => p.2.accesses) with
  | .error e => .error e
  | .ok _ =>
    .ok (ps.filterMap fun p => p.2.value.map fun v => (p.1, v.1), ps.flatMap fun p => (p.2.value.map fun v => v.2).getD [])

/-- The value of a lane; a full write with U operands takes the one lookup it made. -/
def laneValue {α : Type} (l : List (Nat × α)) (i : Nat) : Option α :=
  match Assoc.find l i with
  | some x => some x
  | none => l.head?.map fun x => x.2

/-! ### LDLOD (R383) -/

/-- A texel as its register holds it (R383). -/
def texelWord (t : ETy) (x : Nat) : Word :=
  loWord (if t.isInt then t.wrap (t.value (BitVec.ofNat 64 x)) else BitVec.ofNat 64 x)

/-- One lane's lookup: value and status. -/
def ldlodLane (r : Lod) (c : Word) (q : Reader) : Probe ((Word × Word) × List LookupLog) :=
  let x := (c.extractLsb' 0 14).toNat
  let y := (c.extractLsb' 14 14).toNat
  let w := (c.extractLsb' 28 4).toNat
  (q.resolve r x y w).bind fun a =>
    let status := BitVec.ofNat 32 (a.1 + a.2.1 * 16 + w % 16 * 256)
    let logs := a.2.2.toList
    if a.1 ≤ 1 then
      (q.texel r a.2.1 (x / 2 ^ (a.2.1 - w)) (y / 2 ^ (a.2.1 - w))).bind fun v => .pure ((texelWord r.ty v, status), logs)
    else .pure ((0, status), logs)

/-- LDLOD (R383, R384). -/
def ldlodBody (d a : Pair) (b : Reg) (s : State) (w : Wave) : Run (State × Wave) :=
  let act := activeMask w
  if act = 0 then .ok (s, w)
  else
    match s.readLod w (pairLane w.regs a (lowestLane act)) with
    | .error e => .error e
    | .ok r =>
      let sh := shape32 w.regs b
      let lanes := if act = fullMask ∧ sh = .u then [0] else lanesOf act
      match s.lookups w lanes fun q => ldlodLane r (lane w.regs b q.lane) q with
      | .error e => .error e
      | .ok (vals, logs) =>
        let v (i : Nat) : Word × Word := (laneValue vals i).getD (0, 0)
        let out := if sh = .u then Shape.u else .g
        match w.commit (fun R => write32 (write32 R act (pairReg d) (fun i => (v i).1) out) act (regAt (pairReg d) 1)
            (fun i => (v i).2) out) 0 act with
        | .error e => .error e
        | .ok w' => .ok ((logs.foldl State.logLookup s).countRequests w lanes.length, w')

/-- LDLOD (R383). -/
def execLdlod (d a : Pair) (b : Reg) (s : State) : Host.Outcome State Fault Refusal :=
  issue (.ldlod d a b) s (ldlodBody d a b)

/-! ### Filter microcode (R382) -/

/-- Signed 4-bit operand. -/
def micro4 (x : Nat) : Int := asSigned 4 x

/-- The fields of a microword: op, A, B. -/
def microOp (x : Word) : Nat := (x.extractLsb' 28 4).toNat
/-- A. -/
def microA (x : Word) : Nat := (x.extractLsb' 24 4).toNat
/-- B. -/
def microB (x : Word) : Nat := (x.extractLsb' 20 4).toNat

/-- A microword that R382 allows; `tables` says that the descriptor has tables. -/
def microOk (tables : Bool) (x : Word) : Bool :=
  let a := microA x
  let b := microB x
  decide (x.extractLsb' 0 20 = 0) && match microOp x with
    | 0 => true
    | 1 => true
    | 2 => decide (a ≤ 3) && decide (b ≤ 1) && tables
    | 3 => decide (a ≤ 5) && decide (b ≤ 1)
    | 4 => decide (b = 0) && tables
    | n => decide (n ≤ 9) && decide (a = 0) && decide (b = 0)

/-- Read and check the program from word `i` on: at most `n` more words, `taps` taps so far. -/
def State.readMicro (s : State) (w : Wave) (tables : Bool) (base : DWord) : Nat → Nat → Nat → Run (List Word)
  | 0, i, _ => trapAt .illegalOperand 0 (base + BitVec.ofNat 64 (4 * (i - 1)))
  | n + 1, i, taps =>
    let va := base + BitVec.ofNat 64 (4 * i)
    match s.oneAccess w (s.whoOf s.cur w) .read false false 32 va 4 with
    | .error e => .error e
    | .ok l =>
      let x := BitVec.ofNat 32 (leNat (s.readOne w l))
      let tap := decide (microOp x ≤ 1)
      if !microOk tables x ∨ (tap ∧ 64 ≤ taps) then trapAt .illegalOperand 0 va
      else if microOp x = 9 then .ok [x]
      else
        match s.readMicro w tables base n (i + 1) (if tap then taps + 1 else taps) with
        | .error e => .error e
        | .ok t => .ok (x :: t)

/-- The state of a lane: T, W, ACC, WS and the result, f32 patterns. -/
structure MicroState where
  t : Nat := 0
  w : Nat := 0x3F800000
  acc : Nat := 0
  ws : Nat := 0
  out : Nat := 0

/-- What a lane's program runs on: resolved level, exact u and v, floor(s × W), floor(t × H), ref, tables, wrap fields. -/
structure MicroEnv where
  lod : Lod
  level : Nat
  u : XR
  v : XR
  fs : Int
  ft : Int
  ref : Nat
  tables : List Byte
  wrap : Nat

/-- Decode an f32 pattern. -/
def f32 (x : Nat) : FVal := ETy.f32.fmt.decode x
/-- Round to f32 by RNE. -/
def r32 (x : Exact) : Nat := ETy.f32.fmt.round 0 0 x

/-- The fraction of u or v. -/
def MicroEnv.frac (e : MicroEnv) (a : Nat) : XR :=
  let x := if a = 0 then e.u else e.v
  x.sub (.fin x.floor 1)

/-- The weights of `WBIC`, exactly. -/
def bicubic (k : Nat) (f : XR) : XR :=
  let c (n : Int) : XR := .fin n 1
  let f2 := f.mul f
  let f3 := f2.mul f
  let half (x : XR) : XR := x.div (c 2)
  match k with
  | 0 => half (((c 2).mul f2).sub (f3.add f))
  | 1 => half ((((c 3).mul f3).sub ((c 5).mul f2)).add (c 2))
  | 2 => half ((((c 4).mul f2).sub ((c 3).mul f3)).add f)
  | 3 => half (f3.sub f2)
  | 4 => (c 1).sub f
  | _ => f

/-- A texel as f32 (R382). -/
def texelF32 (t : ETy) (x : Nat) : Nat :=
  if t = .cb4 then r32 (ofDyadic (x, 0) false)
  else if t.isInt then r32 (ofDyadic (t.value (BitVec.ofNat 64 x), 0) false)
  else r32 (t.fmt.decode x).exact

/-- A tap coordinate: clamped or wrapped into `n` texels. -/
def tapCoord (wrap n : Nat) (x : Int) : Nat :=
  if wrap = 1 then (x % (n : Int)).toNat else Nat.min x.toNat (n - 1)

/-- A tap (R382). -/
def Reader.tap (q : Reader) (e : MicroEnv) (x y : Int) : Probe (Nat × List LookupLog) :=
  let cx := tapCoord (e.wrap % 4) (e.lod.w e.level) x
  let cy := tapCoord (e.wrap / 4 % 4) (e.lod.h e.level) y
  let tile := e.lod.tile cx cy
  (q.resident e.lod e.level tile).bind fun b =>
    if b.1 then (q.texel e.lod e.level cx cy).bind fun v => .pure (texelF32 e.lod.ty v, [])
    else .pure (0, [q.log e.lod e.level tile e.level b.2])

/-- One micro-operation that reads no texel. -/
def MicroEnv.apply (e : MicroEnv) (m : MicroState) (x : Word) : MicroState :=
  let a := microA x
  let b := microB x
  let entry (i : Nat) : Nat := leNat ((e.tables.drop (4 * i)).take 4)
  let times (y : Nat) : MicroState := { m with w := r32 (mulF (f32 m.w) (f32 y)).exact }
  match microOp x with
  | 2 => times (entry (16 * a + Nat.min 15 ((e.frac b).mul (.fin 16 1)).floor.toNat))
  | 3 => times ((bicubic a (e.frac b)).round 0)
  | 4 => times (entry (64 + a))
  | 5 => { m with acc := r32 (sumF 0 [f32 m.acc, mulF (f32 m.w) (f32 m.t)]), ws := r32 (sumF 0 [f32 m.ws, f32 m.w]),
                  w := 0x3F800000 }
  | 6 => { m with t := match cmpF (f32 m.t) (f32 e.ref) with
            | some c => if c ≤ 0 then 0x3F800000 else 0
            | none => 0 }
  | 7 => { m with acc := if m.ws % 0x80000000 = 0 then 0 else r32 (divF (f32 m.acc) (f32 m.ws)) }
  | 8 => { m with out := m.acc }
  | _ => m

/-- Run the program. -/
def Reader.runMicro (q : Reader) (e : MicroEnv) : List Word → MicroState → Probe (Nat × List LookupLog)
  | [], m => .pure (m.out, [])
  | x :: t, m =>
    let dx := micro4 (microA x)
    let dy := micro4 (microB x)
    let tap (i j : Int) : Probe (Nat × List LookupLog) :=
      (q.tap e (i + dx) (j + dy)).bind fun p =>
        (q.runMicro e t { m with t := p.1 }).bind fun r => .pure (r.1, p.2 ++ r.2)
    match microOp x with
    | 0 => tap e.u.floor e.v.floor
    | 1 => tap e.fs e.ft
    | _ => q.runMicro e t (e.apply m x)

/-! ### SAMPLE (R385, R386) -/

/-- The rules of R385. -/
def samplerOk (d : Line) : Bool :=
  decide (lineField d 8 8 % 4 = 0) && decide (lineField d 16 1 < 16) && decide (lineField d 16 1 % 4 ≤ 1)
    && decide (lineField d 16 1 / 4 ≤ 1) && decide (lineField d 17 7 = 0) && decide (lineField d 24 8 % 16 = 0)
    && decide (lineField d 32 32 = 0)

/-- One lane of SAMPLE: s, t, w and ref give an f32 pattern, or none for a coordinate that is not finite. -/
def sampleLane (r : Lod) (prog : List Word) (tables : List Byte) (wrap : Nat) (s t w ref : Nat) (q : Reader) :
    Probe (Option Nat × List LookupLog) :=
  match XR.f32 s, XR.f32 t with
  | some xs, some xt =>
    if !(xs.finite && xt.finite) then .pure (none, [])
    else
      let want := Nat.min w (r.count - 1)
      let at_ (x : XR) (n : Nat) : Int := (x.mul (.fin n 1)).floor
      let x := Nat.min (at_ xs (r.w want)).toNat (r.w want - 1)
      let y := Nat.min (at_ xt (r.h want)).toNat (r.h want - 1)
      (q.resolve r x y want).bind fun a =>
        let l := a.2.1
        let half (z : XR) (n : Nat) : XR := (z.mul (.fin n 1)).sub (.fin 1 2)
        let e : MicroEnv :=
          { lod := r, level := l, u := half xs (r.w l), v := half xt (r.h l), fs := at_ xs (r.w l), ft := at_ xt (r.h l),
            ref := ref, tables := tables, wrap := wrap }
        (q.runMicro e prog {}).bind fun m => .pure (some m.1, a.2.2.toList ++ m.2)
  | _, _ => .pure (none, [])

/-- The sampler descriptor, its resource, its program and its tables (R384 checks 1 to 3). -/
def State.readSampler (s : State) (w : Wave) (va : DWord) : Run (Line × Lod × List Word × List Byte) :=
  match s.readDescriptor w va with
  | .error e => .error e
  | .ok d =>
    if !samplerOk d then trapAt .illegalOperand 0 va
    else
      match s.readLod w (BitVec.ofNat 64 (lineField d 0 8)) with
      | .error e => .error e
      | .ok r =>
        let tables := BitVec.ofNat 64 (lineField d 24 8)
        match s.readMicro w (decide (tables ≠ 0)) (BitVec.ofNat 64 (lineField d 8 8)) 128 0 0 with
        | .error e => .error e
        | .ok prog =>
          if prog.any fun x => microOp x == 2 || microOp x == 4 then
            match s.oneAccess w (s.whoOf s.cur w) .read false false 32 tables 320 with
            | .error e => .error e
            | .ok l => .ok (d, r, prog, s.readOne w l)
          else .ok (d, r, prog, [])

/-- SAMPLE (R384, R386). -/
def sampleBody (d : Reg) (a : Pair) (b : Reg) (s : State) (w : Wave) : Run (State × Wave) :=
  let act := activeMask w
  let ty := wmET w.wm
  if !setTxt ty then trapE .illegalType
  else if act = 0 then .ok (s, w)
  else
    match s.readSampler w (pairLane w.regs a (lowestLane act)) with
    | .error e => .error e
    | .ok (desc, r, prog, tables) =>
      if 252 < b.toNat then trapE .illegalOperand
      else
        let src (i k : Nat) : Nat := (lane w.regs (regAt b k) i).toNat
        let allUniform := (List.range 4).all fun k => shape32 w.regs (regAt b k) == .u
        let lanes := if act = fullMask ∧ allUniform then [0] else lanesOf act
        match s.lookups w lanes fun q =>
            sampleLane r prog tables (lineField desc 16 1) (src q.lane 0) (src q.lane 1) (src q.lane 2) (src q.lane 3) q with
        | .error e => .error e
        | .ok (vals, logs) =>
          let v (i : Nat) : Word :=
            match (laneValue vals i).getD none with
            | some x => BitVec.ofNat 32 (ty.fmt.round 0 0 (f32 x).exact)
            | none => BitVec.ofNat 32 ty.fmt.canon
          match w.put32 act d v (if allUniform then .u else .g) with
          | .error e => .error e
          | .ok w' => .ok ((logs.foldl State.logLookup s).countRequests w lanes.length, w')

/-- SAMPLE (R386). -/
def execSample (d : Reg) (a : Pair) (b : Reg) (s : State) : Host.Outcome State Fault Refusal :=
  issue (.sample d a b) s (sampleBody d a b)

end Sys2Proof.Machine
end

