-- ==== Sys2Proof/Machine/Raster.lean ====
section
/-! DEFINITION. PRIMEMIT and VISRD (R387, R390) and the steps of the coverage units (R391 to R393). -/

namespace Sys2Proof.Machine

/-! ### PRIMEMIT (R390) -/

/-- View record address of a primitive record. -/
def primView (r : Line) : DWord := BitVec.ofNat 64 (lineField r 40 8)

/-- The primitives of the active lanes, in order: records and their views, with the checks of R390. -/
def State.primitives (s : State) (w : Wave) (a : Pair) : Run (List (Line × Line)) :=
  let act := activeMask w
  let who := s.whoOf s.cur w
  let va (i : Nat) : DWord := pairLane w.regs a i
  match s.admitLanes w .read false (s.laneAccesses who .read true act va 64) with
  | .error e => .error e
  | .ok l =>
    let recs := l.map fun x => (x.lane, lineOf (s.laneBytes w x))
    let view (i : Nat) : DWord := ((Assoc.find recs i).map primView).getD 0
    let placed := maskOf fun i => act.getLsbD i && decide ((view i).toNat % 64 = 0)
    match s.admitLanes w .read false (s.laneAccesses who .read false placed view 64) with
    | .error e => .error e
    | .ok vl =>
      let views := vl.map fun x => (x.lane, lineOf (s.laneBytes w x))
      let good (r : Nat × Line) : Bool :=
        decide (lineField r.2 48 16 = 0) && match Assoc.find views r.1 with
          | some v => viewOk v
          | none => false
      let bad := maskOf fun i => recs.any fun r => r.1 == i && !good r
      if bad ≠ 0 then trapAt .illegalOperand bad (va (lowestLane bad))
      else .ok (recs.map fun r => (r.2, (Assoc.find views r.1).getD 0))

/-- The triangle of a primitive record. -/
def State.primTriangle (s : State) (w : Wave) (r v : Line) : Triangle :=
  let who := s.whoOf s.cur w
  { pav := who.pav, ctx := who.ctx, core := who.core, stream := w.uid, token := 0, query := none, view := primView r,
    viewRec := v, prim := BitVec.ofNat 32 (lineField r 36 4),
    verts := viewTransform v ((List.range 9).map fun k => lineField r (4 * k) 4) }

/-- PRIMEMIT (R390): waits while the input of a unit it sends to is full. -/
def primemitBody (a : Pair) (s : State) (w : Wave) : Run (State × Wave) :=
  match s.primitives w a with
  | .error e => .error e
  | .ok l =>
    let ts := l.map fun x => s.primTriangle w x.1 x.2
    if !s.coverRoom (ts.flatMap fun t => triangleDies t.viewRec t.verts) then .error (.wait (.primRoom a))
    else .ok (ts.foldl State.sendTriangle s, w)

/-- PRIMEMIT (R390). -/
def execPrimemit (a : Pair) (s : State) : Host.Outcome State Fault Refusal := issue (.primemit a) s (primemitBody a)

/-- PRIMEMIT_SEND (R390): a waiting PRIMEMIT finds room. -/
def execPrimemitSend (wave : Nat) (s : State) : Host.Outcome State Fault Refusal :=
  s.rerun wave fun r => match r with
    | .primRoom a => some (execPrimemit a)
    | _ => none

/-! ### VISRD (R387, R393) -/

/-- Fields of a selector: x, y, sample, and whether it asks for the depth. -/
def selX (x : Word) : Nat := (x.extractLsb' 0 13).toNat
/-- y. -/
def selY (x : Word) : Nat := (x.extractLsb' 13 13).toNat
/-- Sample. -/
def selK (x : Word) : Nat := (x.extractLsb' 26 3).toNat
/-- Depth. -/
def selDepth (x : Word) : Bool := x.getLsbD 29

/-- A selector that R387 allows. -/
def selOk (v : Line) (x : Word) : Bool :=
  decide (x.extractLsb' 30 2 = 0) && decide (selX x < viewWidth v) && decide (selY x < viewHeight v)
    && decide (selK x < viewSamples v)

/-- The wave has an uncommitted triangle that touches a tile. -/
def State.tileOwed (s : State) (stream tx ty : Nat) : Bool :=
  s.coverage.toList.any fun u => (u.input ++ u.binned).any fun t =>
    t.stream == stream && (touchedTiles t.viewRec t.verts).contains (tx, ty)

/-- The word a lane's access of a sample's half makes visible: the tile store on the owning die, else memory (R393). -/
def State.visibleWord (s : State) (w : Wave) (core : Nat) (sel : Word) (a : LaneAccess) : Word :=
  let die := tileDie (selX sel / 64) (selY sel / 64)
  let off := if selDepth sel then 0 else 4
  let plain := BitVec.ofNat 32 (leNat (s.laneBytes w a))
  if die = dieOf core then
    match Assoc.find (s.cover die).store ((a.ok.head?.map Span.key).getD 0 - off) with
    | some x => if selDepth sel then loWord x.value else hiWord x.value
    | none => plain
  else plain

/-- VISRD (R387): reads the view that the context descriptor names. -/
def visrdBody (d a : Reg) (s : State) (w : Wave) : Run (State × Wave) :=
  let act := activeMask w
  let who := s.whoOf s.cur w
  let view := BitVec.ofNat 64 (s.ctxField who.pav who.ctx 136 8)
  let sel (i : Nat) : Word := lane w.regs a i
  if act = 0 then .ok (s, w)
  else if view.toNat % 64 ≠ 0 then trapAt .illegalOperand 0 view
  else
    match s.oneAccess w who .read false false 32 view 64 with
    | .error e => .error e
    | .ok l =>
      let v := lineOf (s.readOne w l)
      let bad := maskOf fun i => act.getLsbD i && !selOk v (sel i)
      if !viewOk v then trapAt .illegalOperand 0 view
      else if bad ≠ 0 then trapAt .illegalOperand bad 0
      else if (lanesOf act).any fun i => s.tileOwed w.uid (selX (sel i) / 64) (selY (sel i) / 64) then .error (.wait .engines)
      else
        let va (i : Nat) : DWord :=
          BitVec.ofNat 64 (sampleAddr v (selX (sel i)) (selY (sel i)) (selK (sel i)) + if selDepth (sel i) then 0 else 4)
        match s.admitLanes w .read false (s.laneAccesses who .read false act va 4) with
        | .error e => .error e
        | .ok l =>
          let f (i : Nat) : Word := ((laneOf l i).map fun x => s.visibleWord w who.core (sel i) x).getD 0
          match w.put32 act d f (if shape32 w.regs a = .u then .u else .g) with
          | .error e => .error e
          | .ok w' => .ok (s, w')

/-- VISRD (R387). -/
def execVisrd (d a : Reg) (s : State) : Host.Outcome State Fault Refusal := issue (.visrd d a) s (visrdBody d a)

/-! ### The steps of a coverage unit -/

/-- Bin entries in use: one for each triangle and tile of the die that it is not resolved in. -/
def CoverageUnit.binsUsed (u : CoverageUnit) (die : Nat) : Nat :=
  (u.binned.map fun t => (((touchedTiles t.viewRec t.verts).filter fun x => tileDie x.1 x.2 == die).filter fun x =>
    !t.resolved.contains (tileNumber t.viewRec x.1 x.2)).length).sum

/-- Bin space has run out (R392). -/
def CoverageUnit.full (u : CoverageUnit) (die : Nat) : Bool := decide (Config.binRoom < u.binsUsed die)

/-- TRIANGLE_ARRIVAL (R391, R392): the triangle at the head of the input joins those that wait for their tiles, once the bins have
room. -/
def execTriangleArrival (die : Nat) (s : State) : Host.Outcome State Fault Refusal :=
  let u := s.cover die
  match u.input with
  | [] => .next s
  | t :: rest => if u.full die then .next s else .next (s.setCover die { u with input := rest, binned := u.binned ++ [t] })

/-- The samples a triangle covers in the tiles of a die: tile, address and depth. -/
def Triangle.samples (t : Triangle) (die : Nat) : List (Nat × Nat × Nat) :=
  ((touchedTiles t.viewRec t.verts).filter fun x => tileDie x.1 x.2 == die).flatMap fun x =>
    (tileSamples t.viewRec t.verts x.1 x.2).map fun p =>
      (tileNumber t.viewRec x.1 x.2, sampleAddr t.viewRec p.1 p.2.1 p.2.2.1, p.2.2.2)

/-- The accesses of covered samples: each is read and may be written (R389). -/
def State.sampleAccess (s : State) (who : Who) (t : Triangle) (x : Nat × Nat × Nat) : Run EngineAccess :=
  (s.engineAccess who [] 0 .atomic false x.2.1 8 [] []).map fun y =>
    { y with kind := .read, spans := withReplies t.answers .read 0 y.spans }

/-- The memory spans of samples, answered where the partner card holds them. -/
def State.sampleSpans (s : State) (who : Who) (t : Triangle) (l : List (Nat × Nat × Nat)) : Run (List (Nat × Nat × Span)) :=
  match l.mapM (s.sampleAccess who t) with
  | .error e => .error e
  | .ok a => (engineAnswers a).map fun _ => (l.zip a).flatMap fun x => x.2.spans.map fun y => (x.1.1, x.1.2.2, y)

/-- What a unit holds at a sample: its tile store, else memory or the partner card's answer. -/
def State.storedSample (s : State) (die : Nat) (x : Span) : DWord :=
  match Assoc.find (s.cover die).store x.key with
  | some y => y.value
  | none =>
    if x.partner then BitVec.ofNat 64 (leNat ((List.range 8).map fun i => replyByte x.reply (x.key + i)))
    else BitVec.ofNat 64 (s.devRead x.key 8)

/-- Apply one covered sample: written where its depth is less than the stored one (R389 step 5). -/
def State.applySample (s : State) (die : Nat) (t : Triangle) (x : Nat × Nat × Span) : State :=
  let old := s.storedSample die x.2.2
  match cmpF (f32 x.2.1) (f32 (loWord old).toNat) with
  | some c =>
    if c < 0 then
      let u := s.cover die
      let new : Sample := { pav := t.pav, ctx := t.ctx, tile := x.1, value := joinWords (BitVec.ofNat 32 x.2.1) t.prim,
                            va := BitVec.ofNat 64 x.2.2.va, page := x.2.2.page, ord := x.2.2.ord, pub := x.2.2.pub }
      s.setCover die { u with store := Assoc.set u.store x.2.2.key new }
    else s
  | none => s

/-- One primitive of a query is committed. -/
def Walker.uncover (query : Nat) (w : Walker) : Walker := if w.uid = query then { w with covers := w.covers - 1 } else w

/-- A committed triangle no longer holds its query's terminal entry, wherever the query is, or its wave's waits (R247, R393). -/
def State.releaseStream (s : State) (t : Triangle) : State :=
  match t.query with
  | some q =>
    { s with
      cores := s.cores.map fun (c : Nat × CoreState) =>
        (c.1, { c.2 with walkers := c.2.walkers.map fun x => (x.1, x.2.uncover q) }),
      pavs := s.pavs.map fun (p : Nat × Pavilion) =>
        (p.1, { p.2 with savedWork := { p.2.savedWork with
          walkers := p.2.savedWork.walkers.map fun x => (x.1, x.2.uncover q) } }) }
  | none =>
    { s with waves := s.waves.map fun (x : Nat × Wave) =>
        if x.2.uid = t.stream ∧ x.2.wait = .engines then (x.1, { x.2 with wait := .none }) else x }

/-- Replace a binned triangle. -/
def State.setBinned (s : State) (die : Nat) (t t' : Triangle) : State :=
  let u := s.cover die
  s.setCover die { u with binned := u.binned.map fun x => if x.stream = t.stream ∧ x.token = t.token then t' else x }

/-- The triangle a unit commits next: the first arrived whose token is its stream's next (R391). -/
def CoverageUnit.next (u : CoverageUnit) : Option Triangle :=
  u.binned.find? fun t => t.token == (Assoc.find u.nextCommit t.stream).getD 0

/-- Resolve a triangle's samples in the tile store; the error is the state in which that has to wait, or in which its context has
ended. -/
def State.resolveSamples (s : State) (die : Nat) (t : Triangle) (l : List (Nat × Nat × Nat)) : Except State State :=
  let who : Who := { core := t.core, pav := t.pav, ctx := t.ctx, block := s.fresh, uid := t.stream }
  match s.sampleSpans who t l with
  | .error e =>
    .error (s.engineStop who (.coverage die) (fun s f q => s.setBinned die t { t with fault := f, fabric := q }) e)
  | .ok l =>
    match l.find? fun x => (Assoc.find (s.cover die).store x.2.2.key).isNone && s.spanPoisoned x.2.2 with
    | some x =>
      .error ((s.addError die 12 7 die t.ctx ((s.poisonLine x.2.2).getD 0)).terminate t.pav t.ctx Cause.poison.code 0)
    | none => .ok (l.foldl (fun s x => s.applySample die t x) s)

/-- The samples of a triangle in tiles that it is not resolved in. -/
def Triangle.open_ (t : Triangle) (die : Nat) : List (Nat × Nat × Nat) :=
  (t.samples die).filter fun x => !t.resolved.contains x.1

/-- TRIANGLE_COMMIT (R389, R391, R393). -/
def execTriangleCommit (die : Nat) (s : State) : Host.Outcome State Fault Refusal :=
  match (s.cover die).next with
  | none => .next s
  | some t =>
    if t.fault.isSome ∨ t.fabric.isSome then .next s
    else match s.resolveSamples die t (t.open_ die) with
      | .error s => .next s
      | .ok s =>
        let u := s.cover die
        .next ((s.setCover die { u with
          binned := dropIf (fun x => x.stream == t.stream && x.token == t.token) u.binned,
          nextCommit := Assoc.set u.nextCommit t.stream (t.token + 1) }).releaseStream t)

/-- The binned triangles in the order in which they may be resolved: each stream's by its tokens, from the next one on, the
streams as their triangles arrived; `n` bounds the search (R391). -/
def commitOrder : Nat → CoverageUnit → List Triangle
  | 0, _ => []
  | n + 1, u =>
    match u.next with
    | none => []
    | some t =>
      t :: commitOrder n { u with binned := dropIf (fun x => x.stream == t.stream && x.token == t.token) u.binned,
                                  nextCommit := Assoc.set u.nextCommit t.stream (t.token + 1) }

/-- Resolve a tile with triangles in order; the error as in `resolveSamples`. -/
def State.resolveTile (s : State) (die tile : Nat) : List Triangle → Except State State
  | [] => .ok s
  | t :: rest =>
    if t.fault.isSome ∨ t.fabric.isSome then .error s
    else match s.resolveSamples die t ((t.open_ die).filter fun x => x.1 == tile) with
      | .error s => .error s
      | .ok s => (s.setBinned die t { t with resolved := t.resolved ++ [tile], answers := [] }).resolveTile die tile rest

/-- TILE_SPILL (R392): a tile is resolved with every triangle binned so far and its samples go to memory; the next triangle that
touches it reads them from there. -/
def execTileSpill (die tile : Nat) (s : State) : Host.Outcome State Fault Refusal :=
  let u := s.cover die
  let mine (t : Triangle) : Bool := !t.resolved.contains tile
    && (touchedTiles t.viewRec t.verts).any fun x => tileDie x.1 x.2 == die && tileNumber t.viewRec x.1 x.2 == tile
  match s.resolveTile die tile ((commitOrder u.binned.length u).filter mine) with
  | .error s => .next s
  | .ok s => .next (s.spillSamples die fun x => x.tile == tile)

end Sys2Proof.Machine
end

