-- ==== Sys2Proof/Machine/Dist.lean ====
section
/-! DEFINITION. The distributors (R396 to R410): queues and their windows, starting a record, admission (R36), placement and
stealing, persistent grids, and early triggers. -/

namespace Sys2Proof.Machine

/-! ### Distributors -/

/-- The distributor of a die. -/
def State.dist (s : State) (die : Nat) : Distributor := (s.dists[die]?).getD {}
/-- Replace a die's distributor. -/
def State.setDist (s : State) (die : Nat) (d : Distributor) : State := { s with dists := s.dists.setIfInBounds die d }
/-- Replace a grid. -/
def State.setGrid (s : State) (g : Nat) (x : Grid) : State := { s with grids := Assoc.set s.grids g x }

/-! ### Queue descriptors (R396, R397) -/

/-- HOMEDIE. -/
def State.queueHome (s : State) (pav q : Nat) : Nat := lineField (s.desc pav q) 15 1
/-- CLASS of a descriptor. -/
def descClass (d : Line) : Nat := lineField d 13 1
/-- RESV of a descriptor. -/
def descResv (d : Line) : Nat := lineField d 16 2
/-- ENABLE of a descriptor. -/
def descEnabled (d : Line) : Bool := d.getLsbD 97

/-- Every enabled queue of the device: pavilion, number and descriptor. -/
def State.enabledQueues (s : State) : List (Nat × Nat × Line) :=
  s.pavs.flatMap fun p => (p.2.desc.filter fun d => descEnabled d.2).map fun d => (p.1, d.1, d.2)

/-- The limits of R396 on a descriptor. -/
def descOk (d : Line) : Bool :=
  decide (lineField d 0 8 % 4096 = 0) && decide (lineField d 0 8 + 64 * lineField d 8 4 ≤ 0x2000000000)
    && ((List.range 13).any fun k => lineField d 8 4 == 2 ^ (k + 4)) && decide (lineField d 12 1 < 8)
    && decide (descClass d ≤ 3) && decide (1 ≤ lineField d 14 1) && decide (lineField d 15 1 ≤ 1)
    && decide (descResv d ≤ 7168) && (descClass d == 0 || decide (descResv d = 0)) && decide (lineField d 20 44 = 0)

/-- QUEUE_ENABLE (R397): a write that sets ENABLE creates the queue, or is refused with ERR 7. -/
def execQueueEnable (pav q : Nat) (desc : Line) (s : State) : Host.Outcome State Fault Refusal :=
  let st := s.queue pav q
  let rt := s.enabledQueues.filter fun x => descClass x.2.2 == 0
  let changed := decide (st.tail ≠ st.head) && match st.lastKind with
    | some k => k != desc.getLsbD 96
    | none => false
  let refused := !descOk desc
    || (descClass desc == 0 && (decide (64 ≤ rt.length)
        || decide (7168 < (rt.map fun x => descResv x.2.2).foldl (· + ·) (descResv desc))))
    || changed
  if !s.pf.locked ∨ 16 ≤ pav ∨ 256 ≤ q ∨ s.queueEnabled pav q ∨ !descEnabled desc then .next s
  else if refused then .next ((s.setDesc pav q (desc &&& ~~~(1#512 <<< 97))).queueError pav q 7 false)
  else .next (s.setDesc pav q desc)

/-- QUEUE_DISABLE (R397): ENABLE is cleared; entries stay in the ring. -/
def execQueueDisable (pav q : Nat) (s : State) : Host.Outcome State Fault Refusal :=
  if s.pf.locked then .next (s.disableQueue pav q) else .next s

/-- HOST_ENQUEUE_STORE (R399, R448, R452): a store to an enqueue window appends one entry or is discarded. -/
def execHostEnqueueStore (off : Nat) (whole : Bool) (data : Line) (s : State) : Host.Outcome State Fault Refusal :=
  let pav := off / 0x4000
  let q := off % 0x4000 / 64
  let home := s.queueHome pav q
  if 0x40000 ≤ off ∨ !s.pf.ready.getLsbD (11 + home % 2) then .next s
  else if !s.queueEnabled pav q then .next (s.queueError pav q 8 true)
  else if !whole ∨ off % 64 ≠ 0 then .next (s.queueError pav q 1 true)
  else if s.queueCap pav q ≤ s.queueCount pav q then .next (s.queueError pav q 2 true)
  else if !s.itemQueue pav q ∧ !recordOk data then .next (s.queueError pav q 3 true)
  else .next (s.appendEntry pav q data)

/-! ### Context descriptors at admission (R412, R450) -/

/-- Latch FLAGS and FABKEY of a context with its first block (R450). -/
def State.latchCtx (s : State) (pav ctx : Nat) : State :=
  match s.ctx pav ctx with
  | some _ => s
  | none =>
    let flags := s.ctxField pav ctx 124 1
    let c : CtxState := { debuggable := decide (flags / 2 % 2 = 1), drmap := decide (flags / 16 % 2 = 1),
                          fabkey := BitVec.ofNat 32 (s.ctxField pav ctx 144 4) }
    { s with ctxs := Assoc.set s.ctxs (ctxKey pav ctx) c }

/-- The contexts of what a pre-emption of pavilion `p` has saved. -/
def Pavilion.savedKeys (p : Pavilion) (pav : Nat) : List Nat :=
  (p.savedBlocks.map fun b => ctxKey pav b.block.ctx)
    ++ (p.savedWork.walkers.filterMap fun x => x.2.shipped.map fun h => ctxKey pav h.ctx)
    ++ (p.savedWork.fifo.filterMap fun x => x.2.handoff.map fun m => ctxKey pav m.ctx)
    ++ p.savedWork.triangles.map fun x => ctxKey pav x.2.ctx

/-- The contexts that hold work: blocks, grids, records of the resume lists, queries of the partner card, triangles, collective
messages, and what a pre-emption has saved. -/
def State.workKeys (s : State) : List Nat :=
  (s.blocks.map fun b => ctxKey b.2.pav b.2.ctx) ++ (s.grids.map fun g => ctxKey g.2.pav g.2.ctx)
    ++ (s.dists.toList.flatMap fun d => d.resume.toList.flatMap fun l => l.map fun e => ctxKey e.pav e.ctx)
    ++ (s.cores.flatMap fun c => (c.2.walkers.filterMap fun x => x.2.shipped.map fun h => ctxKey h.pav h.ctx)
      ++ c.2.fifo.filterMap fun e => e.handoff.map fun m => ctxKey m.pav m.ctx)
    ++ (s.coverage.toList.flatMap fun u => (u.input ++ u.binned).map fun t => ctxKey t.pav t.ctx)
    ++ (s.units.flatMap fun u => u.2.redx.map fun m => ctxKey m.pav m.ctx) ++ (s.colls.map fun m => ctxKey m.pav m.ctx)
    ++ s.pavs.flatMap fun p => p.2.savedKeys p.1

/-- The context holds work. -/
def State.ctxWork (s : State) (pav ctx : Nat) : Bool := s.workKeys.contains (ctxKey pav ctx)

/-- Forget what was latched of a context whose VALID is 0 while it holds no work (R450). -/
def State.unlatch (s : State) : State :=
  { s with ctxs := dropIf (fun c => !s.ctxValid (c.1 / 65536) (c.1 % 65536) && !s.ctxWork (c.1 / 65536) (c.1 % 65536)) s.ctxs }

/-- Spans of a distributor's read in a context, whose translation the context descriptor gives (R402). -/
def State.distSpans (s : State) (die pav ctx va n : Nat) : Except AccFail (List Span) :=
  let c := die * 112
  (s.setCore c (s.loadCtx {} pav ctx)).resolve { core := c, pav := pav, ctx := ctx, block := s.fresh, uid := s.fresh } .read false
    va n

/-! ### Admission (R36, R434) -/

/-- Wave slots of quad `q` that hold no wave, lowest first. -/
def State.freeSlots (s : State) (core q : Nat) : List Nat :=
  ((List.range 8).map fun i => core * 32 + q * 8 + i).filter fun k => (s.wave k).isNone

/-- Rows of quad `q` that no wave's budget reserves. -/
def State.freeRows (s : State) (core q : Nat) : Nat :=
  512 - ((s.waves.filter fun w => w.1 / 8 == core * 4 + q).map fun w => w.2.gbudget.toNat).foldl (· + ·) 0

/-- The quad that takes a wave: the one with the most unreserved rows, the lowest on ties. -/
def pickQuad (budget : Nat) (quads : List (Nat × List Nat × Nat)) : Option (Nat × Nat) :=
  (quads.foldl (fun (best : Option (Nat × Nat × Nat)) q =>
    match q.2.1 with
    | [] => best
    | slot :: _ =>
      if q.2.2 < budget then best
      else match best with
        | some b => if b.2.2 < q.2.2 then some (q.1, slot, q.2.2) else best
        | none => some (q.1, slot, q.2.2)) none).map fun b => (b.1, b.2.1)

/-- Slots for waves of given budgets, in order; the first takes none of the slots that other blocks have for their block slot
(R39, assumption 58). -/
def seatWaves (taken : List Nat) : List Nat → List (Nat × List Nat × Nat) → Option (List Nat)
  | [], _ => some []
  | b :: t, quads =>
    match pickQuad b (quads.map fun x => (x.1, x.2.1.filter (fun k => !taken.contains k), x.2.2)) with
    | none => none
    | some (q, slot) =>
      (seatWaves [] t (quads.map fun x => if x.1 = q then (x.1, x.2.1.erase slot, x.2.2 - b) else x)).map fun l => slot :: l

/-- The block slots of a core's resident blocks (R39). -/
def State.blockSlots (s : State) (core : Nat) : List Nat :=
  s.blocks.filterMap fun b => (b.2.half core).map fun h => core * 32 + h.blockSlot

/-- The quads of a core as admission sees them: free slots and unreserved rows. -/
def State.quadsOf (s : State) (core : Nat) : List (Nat × List Nat × Nat) :=
  (List.range (s.waveSlots core / 8)).map fun q => (q, s.freeSlots core q, s.freeRows core q)

/-- Bytes of a logical core's scratchpad (R36, R434). -/
def State.scratchSize (s : State) (core : Nat) : Nat := if s.shares core then 0x20000 else 0x40000

/-- Allocations on a core: base and size. -/
def State.allocations (s : State) (core : Nat) : List (Nat × Nat) :=
  s.blocks.flatMap fun b => (b.2.halves.filter fun h => h.core == core).map fun h => (h.base, b.2.scratch)

/-- The lowest free range of `size` bytes of a core's scratchpad: it starts at 0 or where an allocation ends. -/
def State.freeRange (s : State) (core size : Nat) : Option Nat :=
  let used := (s.allocations core).filter fun a => a.2 != 0
  let starts := 0 :: used.map fun a => a.1 + a.2
  let fits (b : Nat) : Bool :=
    decide (b + size ≤ s.scratchSize core) && used.all fun a => decide (b + size ≤ a.1) || decide (a.1 + a.2 ≤ b)
  (starts.filter fits).foldl (fun best b => match best with
    | some x => if b < x then some b else some x
    | none => some b) none

/-- A physical pair has failed: it is being mapped out, or is marked for it (R433). -/
def State.pairFailed (s : State) (pair : Nat) : Bool :=
  s.failed.contains pair || s.pf.marked.contains pair || (s.pf.mapoutBusy && s.pf.mapout.toNat == pair)

/-- A logical core that takes work: bound to working hardware, not power-gated (R421, R433). -/
def State.coreUsable (s : State) (core : Nat) : Bool :=
  match s.hostOf (core / 2) with
  | some h => !s.pairFailed h && !(s.core core).gated
  | none => false

/-- Slots and scratchpad base for the waves of a block's half on a core (R36). -/
def State.admitHalf (s : State) (core waves budget scratch : Nat) : Option (List Nat × Nat) :=
  if !s.coreUsable core then none
  else
    match seatWaves (s.blockSlots core) (List.replicate waves budget) (s.quadsOf core), s.freeRange core scratch with
    | some slots, some base => some (slots, base)
    | _, _ => none

/-- A placement: each core with its slots and base. -/
abbrev Placement := List (Nat × List Nat × Nat)

/-- Where a block of a grid fits from a core on: the core itself, or its pair for a paired block. -/
def State.fitsAt (s : State) (g : Grid) (core : Nat) : Option Placement :=
  if g.paired then
    match s.admitHalf core (g.waves / 2) g.budget g.scratch, s.admitHalf (core + 1) (g.waves / 2) g.budget g.scratch with
    | some a, some b => some [(core, a), (core + 1, b)]
    | _, _ => none
  else (s.admitHalf core g.waves g.budget g.scratch).map fun a => [(core, a)]

/-- The cores of a die in the order in which its distributor tries them (R404). -/
def State.tryOrder (s : State) (die : Nat) (paired : Bool) : List Nat :=
  let last := (s.dist die).lastCore
  if paired then (List.range 56).map fun i => die * 112 + (last / 2 + 1 + i) % 56 * 2
  else (List.range 112).map fun i => die * 112 + (last + 1 + i) % 112

/-- The first core that admits a block of the grid. -/
def State.findPlace (s : State) (die : Nat) (g : Grid) : Option Placement :=
  (s.tryOrder die g.paired).findSome? fun c => s.fitsAt g c

/-! ### Reservations (R401) -/

/-- Free wave slots of a die. -/
def State.dieFree (s : State) (die : Nat) : Nat :=
  ((List.range 112).map fun i =>
    let c := die * 112 + i
    if s.coreUsable c then ((List.range (s.waveSlots c)).filter fun k => (s.wave (c * 32 + k)).isNone).length else 0).foldl (· + ·) 0

/-- A wave was started by a queue. -/
def State.startedBy (s : State) (w : Wave) (pav q : Nat) : Bool :=
  match (s.block w.block).bind fun b => Assoc.find s.grids b.grid with
  | some g => g.pav == pav && g.queue == some q
  | none => false

/-- Slots of a die that the reservations of every RT queue but one hold back. -/
def State.heldBack (s : State) (die : Nat) (own : Option (Nat × Nat)) : Nat :=
  (((s.enabledQueues.filter fun x => descClass x.2.2 == 0 && own != some (x.1, x.2.1)).map fun x =>
    let r := descResv x.2.2
    let share := if lineField x.2.2 15 1 = die then (r + 1) / 2 else r / 2
    let held := (s.waves.filter fun w => dieOf (coreOf w.1) == die && s.startedBy w.2 x.1 x.2.1).length
    share - held)).foldl (· + ·) 0

/-- Waves of a grid may take `n` slots of a die without touching what RT queues reserve. -/
def State.withinReserve (s : State) (die n : Nat) (g : Grid) : Bool :=
  decide (s.heldBack die (g.queue.map fun q => (g.pav, q)) + n ≤ s.dieFree die)

/-! ### Placing a block (R36 to R44, R404, R412) -/

/-- The start state of a wave (R42, R43). -/
def startWave (n uid block waveId linear : Nat) (g : Grid) : Wave :=
  { uid := uid, block := block, waveId := waveId,
    regs := Vector.ofFn fun i => .u (if i.val < 10 then recArg g.record i.val else 0),
    wsPriv := g.priv, fp := recFrame g.record, gbudget := BitVec.ofNat 32 g.budget,
    rseed := 0x6A5D39C1 ^^^ BitVec.ofNat 32 (linear * 64 + waveId), pc := recCode g.record, age := n,
    stage := BitVec.ofNat 8 (lineField g.record 20 1), prio := BitVec.ofNat 2 (recClass g.record) }

/-- GRIDDIM (R60). -/
def gridDim (g : Grid) : DWord := BitVec.ofNat 64 (g.x + g.y * 2 ^ 32 + g.z * 2 ^ 49)

/-- A newly admitted allocation reads 0 (R41). -/
def State.clearScratch (s : State) (core base size : Nat) : State :=
  let lo := scratchKey core base
  { s with mem := dropIf (fun c => decide (lo ≤ c.1) && decide (c.1 < lo + size)) s.mem,
           poisoned := dropIf (fun l => decide (lo ≤ l * 64) && decide (l * 64 < lo + size)) s.poisoned }

/-- A wave comes to a slot. -/
def State.seat (s : State) (k : Nat) (w : Wave) : State := { s.setWave k w with exited := Assoc.erase s.exited k }

/-- A core admits the waves of one half: their slots, the allocation, and the context's registers. Their start is an acquire,
so that the L1 gives up its lines (R408). -/
def State.placeHalf (s : State) (g : Grid) (block linear first : Nat) (p : Nat × List Nat × Nat) : State :=
  let s := ((s.clearScratch p.1 p.2.2 g.scratch).flushL1 p.1).setCore p.1 (s.loadCtx (s.core p.1) g.pav g.ctx)
  (p.2.1.zipIdx.foldl (fun (s : State) x =>
    (s.seat x.1 (startWave s.fresh s.fresh block (first + x.2) linear g)).bump) s)

/-- Block `linear` of grid `gid` starts at a placement. Its block slot on a core stays its first wave's there, also once that wave
has ended (R39, assumption 58). -/
def State.placeBlock (s : State) (die gid linear : Nat) (g : Grid) (pl : Placement) : State :=
  let key := s.fresh
  let s := (s.latchCtx g.pav g.ctx).bump
  let s := (pl.zipIdx.foldl (fun (s : State) x => s.placeHalf g key linear (x.2 * (g.waves / 2)) x.1) s)
  let slots := pl.flatMap fun p => p.2.1
  let b : Block :=
    { pav := g.pav, ctx := g.ctx, grid := gid, linear := linear, x := linear % g.x, y := linear / g.x % g.y,
      z := linear / (g.x * g.y), gridDim := gridDim g, stage := BitVec.ofNat 8 (lineField g.record 20 1), paired := g.paired,
      alive := slots, waves := g.waves, scratch := g.scratch,
      ctxBase := BitVec.ofNat 64 (s.ctxField g.pav g.ctx 104 8),
      halves := pl.map fun p => { core := p.1, base := p.2.2, blockSlot := (p.2.1.head?.getD 0) % 32 },
      agents := slots.filterMap fun k => (s.wave k).map fun w => w.uid }
  let d := s.dist die
  let last := ((pl.getLast?.map fun p => p.1).getD 0) % 112
  let g' := { g with unplaced := g.unplaced.map fun l => l.erase linear, placed := g.placed + 1 }
  ((s.setBlock key b).setGrid gid g').setDist die { d with lastCore := last }

/-! ### The next block to place (R401, R404) -/

/-- Insert by key, after the elements of the same key. -/
def insertBy {α : Type} (key : α → Nat) (x : α) : List α → List α
  | [] => [x]
  | y :: t => if key x < key y then x :: y :: t else y :: insertBy key x t

/-- Sort by key, elements of one key in the order in which they stand. -/
def sortBy {α : Type} (key : α → Nat) (l : List α) : List α := l.foldl (fun acc x => insertBy key x acc) []

/-- The source key of a grid on a die: 0 for the resume list, 1 + pav*256 + q for a queue. -/
def Grid.source (g : Grid) : Nat := match g.queue with | some q => 1 + g.pav * 256 + q | none => 0

/-- The grids of a class with a block for a die to place, in the order of their start. -/
def State.candidates (s : State) (die cls : Nat) : List (Nat × Grid × Nat) :=
  s.grids.filterMap fun x =>
    let g := x.2
    match (g.unplaced[die]?).getD [] with
    | n :: _ =>
      if g.cls = cls ∧ (g.received[die]?).getD false ∧ (!g.persistent ∨ g.admitted) ∧ !s.paused g.pav g.ctx then some (x.1, g, n)
      else none
    | [] => none

/-- The starts a visit allows: 16 for the resume list, WEIGHT for a queue. -/
def State.visitWeight (s : State) (source : Nat) : Nat :=
  if source = 0 then 16 else lineField (s.desc ((source - 1) / 256) ((source - 1) % 256)) 14 1

/-- Sources in the order of the weighted round robin: the one being visited while starts are left, then the later ones, then the
earlier ones. -/
def visitOrder (visit : Nat × Nat) (l : List Nat) : List Nat :=
  let here := l.filter fun x => x == visit.1
  (if visit.2 = 0 then [] else here) ++ (l.filter fun x => decide (visit.1 < x)) ++ (l.filter fun x => decide (x < visit.1))
    ++ (if visit.2 = 0 then here else [])

/-- A persistent grid of a class or a higher one waits for the room of all its blocks (R406). -/
def State.classHeld (s : State) (cls : Nat) : Bool :=
  s.grids.any fun x => x.2.persistent && !x.2.admitted && decide (x.2.cls ≤ cls) && !s.paused x.2.pav x.2.ctx

/-- Note a start in the round robin. -/
def Distributor.visited (d : Distributor) (cls source weight : Nat) : Distributor :=
  let v := (d.visit[cls]?).getD (0, 16)
  let left := if v.1 = source ∧ v.2 ≠ 0 then v.2 - 1 else weight - 1
  { d with visit := d.visit.setIfInBounds cls (source, left) }

/-! ### Persistent grids (R406, R407) -/

/-- Place blocks of a grid on a die, first to last, while each fits; none where one does not. -/
def State.placeAll (s : State) (die gid : Nat) : List Nat → Option State
  | [] => some s
  | n :: t =>
    match Assoc.find s.grids gid with
    | none => none
    | some g =>
      match s.findPlace die g with
      | none => none
      | some p => (s.placeBlock die gid n g p).placeAll die gid t

/-- Place every block of a persistent grid on both dies. -/
def State.placeGrid (s : State) (gid : Nat) (g : Grid) : Option State :=
  let s := s.setGrid gid { g with admitted := true }
  match s.placeAll 0 gid ((g.unplaced[0]?).getD []) with
  | none => none
  | some s => s.placeAll 1 gid ((g.unplaced[1]?).getD [])

/-- The grid fits on the device as it is mapped, with every core empty and none power-gated (R407). -/
def State.admissible (s : State) (g : Grid) : Bool :=
  let cores := s.cores.map fun (c : Nat × CoreState) => (c.1, { c.2 with gated := false })
  ({ s with waves := [], blocks := [], cores := cores }.placeGrid s.fresh g).isSome

/-! ### Starting a record (R401 to R404, R408) -/

/-- The launch header (R402): budget, allocation, privilege; none where a field is outside its limits. -/
def headerFields (bs : List Byte) (mayPriv : Bool) : Option (Nat × Nat × Bool) :=
  let f (o n : Nat) : Nat := leNat ((bs.drop o).take n)
  let b := f 0 2
  let priv := decide (f 8 1 % 2 = 1)
  if b < 8 ∨ 256 < b ∨ b % 8 ≠ 0 ∨ f 2 2 ≠ 0 ∨ f 4 4 % 256 ≠ 0 ∨ 262144 < f 4 4 ∨ 2 ≤ f 8 1 ∨ f 9 7 ≠ 0
      ∨ (priv ∧ !mayPriv) then none
  else some (b, f 4 4, priv)

/-- A record at the head of its source. -/
structure Head where
  die : Nat
  queue : Option Nat
  pav : Nat
  ctx : Nat
  cls : Nat
  record : Line
  mayPriv : Bool
  carried : Option (Nat × Nat × Bool)
  answers : List Answer
  deriving DecidableEq, Repr

/-- Where the record stands. -/
def Head.unit (h : Head) : FaultUnit := match h.queue with | some q => .queue h.pav q | none => .resume h.die h.cls

/-- Replace the waits of a record at its source. -/
def State.markHead (s : State) (h : Head) (fault fabric : Option Nat) : State :=
  match h.queue with
  | some q => s.setQueue h.pav q { s.queue h.pav q with fault := fault, fabric := fabric, answers := [] }
  | none =>
    let d := s.dist h.die
    s.setDist h.die { d with resume := d.resume.mapIdx fun c l =>
      if c = h.cls then match l with
        | e :: t => { e with fault := fault, fabric := fabric, answers := [] } :: t
        | [] => []
      else l }

/-- Take the record from its source. -/
def State.dropHead (s : State) (h : Head) : State :=
  match h.queue with
  | some q =>
    let s := s.takeEntry h.pav q
    s.setQueue h.pav q { s.queue h.pav q with fault := none, fabric := none, answers := [] }
  | none =>
    let d := s.dist h.die
    s.setDist h.die { d with resume := d.resume.mapIdx fun c l => if c = h.cls then l.tail else l }

/-- Discard a record with an ERR code (R398). -/
def State.refuseHead (s : State) (h : Head) (err : Nat) : State :=
  let s := s.dropHead h
  match h.queue with
  | some q => s.queueError h.pav q err false
  | none => s.pavEvent h.pav 1 h.ctx 0xFFFFFFFF err

/-- Extents of a record (R43, R403); none where ERR 5 holds. -/
def recExtents (r : Line) : Option (Nat × Nat × Nat) :=
  let a := (recArg r 8).toNat
  let b := (recArg r 9).toNat
  let x := a % 2 ^ 24 + 1
  let z := a / 2 ^ 24 + 1
  let y := b % 2 ^ 16 + 1
  if !recGrid r then some (1, 1, 1)
  else if 2 ^ 24 < x * y * z ∨ b / 2 ^ 18 ≠ 0 ∨ b / 2 ^ 16 % 4 = 3 then none
  else some (x, y, z)

/-- AFTER and AFTERDONE of a grid record. -/
def recAfter (r : Line) : Nat := if recGrid r then (recArg r 9).toNat / 2 ^ 16 % 4 else 0

/-- The grid that a record and its launch values make (R43, R402 to R404). -/
def Head.grid (h : Head) (v : Nat × Nat × Bool) (e : Nat × Nat × Nat) : Grid :=
  let n := e.1 * e.2.1 * e.2.2
  let isGrid := recGrid h.record
  let half (p : Nat) : List Nat := (List.range n).filter fun i => i % 2 == p
  { pav := h.pav, ctx := h.ctx, queue := h.queue, home := h.die, cls := h.cls, record := h.record, isGrid := isGrid,
    x := e.1, y := e.2.1, z := e.2.2, budget := v.1, scratch := v.2.1, priv := v.2.2, waves := recWaves h.record,
    paired := recPaired h.record, persistent := recPersistent h.record,
    unplaced := if isGrid then #v[half 0, half 1] else if h.die = 0 then #v[[0], []] else #v[[], [0]],
    received := if isGrid then (if h.die = 0 then #v[true, false] else #v[false, true]) else #v[true, true] }

/-- A started record: its grid stands, or ERR 6 (R407). -/
def State.startHead (s : State) (h : Head) (v : Nat × Nat × Bool) (e : Nat × Nat × Nat) : State :=
  let g := { h.grid v e with memory := s.mem }
  let live := s.grids.any fun x => x.2.persistent && x.2.pav == h.pav && x.2.ctx == h.ctx
  if g.persistent ∧ (live ∨ !s.admissible g) then s.refuseHead h 6
  else
    let id := s.fresh
    let s := ((s.dropHead h).setGrid id g).bump
    match h.queue with
    | some q => s.setQueue h.pav q { s.queue h.pav q with
        current := some id, predecessor := if g.isGrid then some id else (s.queue h.pav q).predecessor }
    | none => s

/-- Consumed poison of a distributor: the record is discarded with ERR 4 and its context terminated (R402, R430). -/
def State.poisonHead (s : State) (h : Head) (line : Nat) : State :=
  ((s.refuseHead h 4).addError h.die 11 7 h.die h.ctx line).terminate h.pav h.ctx Cause.poison.code 0

/-- The poisoned line that the record at a head, in the ring of its queue, or the descriptor of its context lies on (R429). -/
def State.headStruck (s : State) (h : Head) : Option Nat :=
  (h.queue.bind fun q => s.headPoison h.pav q).or (s.descPoison h.pav h.ctx)

/-- The record at a head starts: its grid fields, then its launch header (R402, R403). -/
def State.tryHead (s : State) (h : Head) : State :=
  match s.headStruck h, recExtents h.record with
  | some line, _ => s.poisonHead h line
  | none, none => s.refuseHead h 5
  | none, some e =>
    let va := (recFrame h.record - 528).toNat
    if !s.ctxValid h.pav h.ctx ∨ !recordOk h.record then s.refuseHead h 4
    else match h.carried with
      | some v => s.startHead h v e
      | none =>
        match s.distSpans h.die h.pav h.ctx va 16 with
        | .error (.fault a) =>
          if s.faultRing h.pav then
            (s.pendFault h.pav h.ctx 0xFFFF (BitVec.ofNat 64 a) .read h.unit 0).markHead h (some s.fresh) none
          else s.refuseHead h 4
        | .error _ => s.refuseHead h 4
        | .ok l =>
          let l := withReplies h.answers .read 0 l
          let asks := spanAsks .read 0 {} l [] []
          let who : Who := { core := h.die * 112, pav := h.pav, ctx := h.ctx, block := s.fresh, uid := s.fresh }
          if !asks.isEmpty then (s.askGroup who h.unit asks).markHead h none (some s.fresh)
          else if l.any fun x => replyFault x.reply then s.refuseHead h 4
          else match l.findSome? s.poisonLine with
            | some line => s.poisonHead h line
            | none =>
              match headerFields (s.homeBytes l) h.mayPriv with
              | none => s.refuseHead h 4
              | some v => s.startHead h v e

/-- Every block of a grid has been placed, on whichever die; a grid that has completed is gone. -/
def State.allPlaced (s : State) (g : Option Nat) : Bool :=
  match g.bind fun i => Assoc.find s.grids i with
  | some x => decide (x.placed = x.x * x.y * x.z)
  | none => true

/-- The grid is triggered (R408). -/
def State.gridTriggered (s : State) (g : Option Nat) : Bool :=
  match g.bind fun i => Assoc.find s.grids i with
  | some x => decide (x.placed = x.x * x.y * x.z) && decide (x.trigged = x.x * x.y * x.z)
  | none => true

/-- Every block of the grid has completed (R140, R408). -/
def State.gridComplete (s : State) (g : Option Nat) : Bool := (g.bind fun i => Assoc.find s.grids i).isNone

/-- The record at the head of an enabled record queue of a die, where its distributor may start it (R401). -/
def State.queueHead (s : State) (die pav q : Nat) : Option Head :=
  let st := s.queue pav q
  let d := s.desc pav q
  if !s.created pav q false ∨ s.queueHome pav q ≠ die ∨ s.queueCount pav q = 0 ∨ !s.allPlaced st.current ∨ st.fault.isSome
      ∨ st.fabric.isSome ∨ s.paused pav (s.queueCtx pav q) ∨ !s.pf.ready.getLsbD (11 + die) ∨ s.thermal then none
  else some { die := die, queue := some q, pav := pav, ctx := s.queueCtx pav q, cls := descClass d, record := s.headEntry pav q,
              mayPriv := d.getLsbD 98, carried := none, answers := st.answers }

/-- The record at the head of a resume list, where its distributor may start it: the list is a FIFO. -/
def State.resumeHead (s : State) (die cls : Nat) : Option Head :=
  match ((s.dist die).resume[cls]?).getD [] with
  | [] => none
  | e :: _ =>
    let busy := s.grids.any fun x => x.2.queue.isNone && x.2.home == die && x.2.cls == cls && !s.allPlaced (some x.1)
    if e.fault.isSome ∨ e.fabric.isSome ∨ s.paused e.pav e.ctx ∨ busy ∨ !s.pf.ready.getLsbD (11 + die) ∨ s.thermal then none
    else some { die := die, queue := none, pav := e.pav, ctx := e.ctx, cls := cls, record := e.record, mayPriv := e.byPriv,
                carried := e.carried, answers := e.answers }

/-- The predecessor lets a grid record start (R408). -/
def State.predecessorAllows (s : State) (h : Head) : Bool :=
  match h.queue with
  | none => true
  | some q =>
    let p := (s.queue h.pav q).predecessor
    match recAfter h.record with
    | 1 => s.gridTriggered p
    | 2 => s.gridComplete p
    | _ => true

/-- GRID_RECORD_RECEIVE (R404): the other die's distributor has the record and its share of the blocks. -/
def execGridRecordReceive (die grid : Nat) (s : State) : Host.Outcome State Fault Refusal :=
  match Assoc.find s.grids grid with
  | none => .next s
  | some g =>
    if die < 2 ∧ s.pf.ready.getLsbD (11 + die) then
      .next (s.setGrid grid { g with received := g.received.setIfInBounds die true })
    else .next s

end Sys2Proof.Machine
end

