-- ==== Sys2Proof/Machine/Fabric.lean ====
section
/-! DEFINITION. Memory behind the device's back: stores and loads that complete (R68, R177, R191), host accesses (R193,
R452), error records (R427, R431), page faults and their answers (R419), shoot-downs and power gating (R420,
R421), and the partner card (R423 to R426). -/

namespace Sys2Proof.Machine

/-! ### Error records (R431) -/

/-- ERR_RECORD_FREE (R431): writing 1 to VALID frees the record. -/
def execErrRecordFree (die n : Nat) (s : State) : Host.Outcome State Fault Refusal :=
  if die < 2 ∧ n < 64 ∧ s.pf.ready.getLsbD (7 + die) then
    .next { s with errors := Assoc.set s.errors (die * 64 + n) (s.errorAt die n &&& ~~~(1#256)) }
  else .next s

/-! ### Loads that return (R68) -/

/-- LOAD_RETURN (R68, R427, R428): the data of a wave's oldest owed load arrives, a line of it read from L2 or GDDR7 and sent over a
hop. Poisoned data is consumed. -/
def execLoadReturn (wave : Nat) (arrival : LineArrival) (s : State) : Host.Outcome State Fault Refusal :=
  match s.wave wave with
  | none => .next s
  | some w =>
    match w.owed with
    | [] => .next s
    | o :: rest =>
      let line := (o.lines[arrival.index]?).getD 0
      let who := s.whoOf wave w
      let n := hopMismatches (s.lineCheck line) arrival.hops.values
      let s := ((s.setWave wave { w with owed := rest }).eccLine line arrival.ecc).hopRecords arrival.hops.hop line n
      if arrival.ecc = .double ∨ arrival.ecc = .checkFailed ∨ 4 ≤ n then
        .next (s.consumePoison who.core who.pav who.ctx 0 (line * 64) o.pc)
      else .next s

/-! ### Stores that are performed (R177, R191) -/

/-- An older store of the agent shares a byte (R178). -/
def olderOverlaps (agent : Nat) (cells : List Host.Cell) (older : List PendingStore) : Bool :=
  older.any fun p => p.agent == agent && p.cells.any fun c => cells.any fun d => c.1 == d.1

/-- Place of the `idx`-th store of an agent. -/
def storePlace (agent : Nat) : Nat → Nat → List PendingStore → Option Nat
  | _, _, [] => none
  | idx, at_, p :: t =>
    if p.agent = agent then (if idx = 0 then some at_ else storePlace agent (idx - 1) (at_ + 1) t)
    else storePlace agent idx (at_ + 1) t

/-- MEMORY_PERFORM (R171, R177, R427): a store reaches its home, its line sent over a hop; the fourth mismatch poisons it. -/
def execMemoryPerform (agent idx : Nat) (hops : Sends) (s : State) : Host.Outcome State Fault Refusal :=
  match storePlace agent idx 0 s.stores with
  | none => .next s
  | some n =>
    match s.stores[n]? with
    | none => .next s
    | some p =>
      if olderOverlaps agent p.cells (s.stores.take n) then .next s
      else
        let s := { s with stores := s.stores.take n ++ s.stores.drop (n + 1) }.performStore p
        let line := ((p.cells.head?.map fun c => c.1 / 64).getD 0)
        let m := hopMismatches (s.lineCheck line) hops.values
        .next ((if 4 ≤ m then s.poison line else s).hopRecords hops.hop line m)

/-- DR_PROPAGATE (R191): the oldest store of a die is performed at the other replica. -/
def execDrPropagate (die : Nat) (s : State) : Host.Outcome State Fault Refusal :=
  match s.drQueue.find? fun x => x.1 == die with
  | none => .next s
  | some x => .next ({ s with drQueue := s.drQueue.erase x }.propagate x)

/-! ### The host (R193, R398, R448, R452) -/

/-- The 64 bytes of a queue's status block (R398). -/
def QueueState.bytes (q : QueueState) : List Byte :=
  leBytes q.head.toNat 4 ++ leBytes q.tail.toNat 4 ++ leBytes q.dropped.toNat 4 ++ leBytes q.err.toNat 1 ++ leBytes 0 3
    ++ leBytes q.errcnt.toNat 4 ++ leBytes 0 44

/-- HOST_MEM_STORE (R193, R452): a CXL.mem store to device memory, performed at its home; before CXL.mem is ready it completes
with the poison indication. -/
def execHostMemStore (addr : Nat) (data : List (BitVec 8)) (s : State) : Host.Outcome State Fault Refusal :=
  if !s.pf.ready.getLsbD 5 then .next (s.emit (.hostData addr [] true))
  else if 0x2000000000 < addr + data.length then .next s
  else .next (s.performCells (cellsFrom addr data))

/-- HOST_MEM_READ (R427, R429, R448, R452): a CXL.mem read of device memory, or of an enqueue window; a check that fails at the
egress gives the poison indication. -/
def execHostMemRead (addr : Nat) (read : HostRead) (s : State) : Host.Outcome State Fault Refusal :=
  if 0x2000000000 ≤ addr then
    let off := addr - 0x2000000000
    if 0x40000 ≤ off then .next s
    else
      let q := s.queue (off / 0x4000) (off % 0x4000 / 64)
      .next (s.emit (.hostData addr ((q.bytes.drop (off % 64)).take read.len) read.egressFails))
  else if !s.pf.ready.getLsbD 5 then .next (s.emit (.hostData addr [] true))
  else if 0x2000000000 < addr + read.len then .next s
  else
    let bad := (List.range (read.len / 64 + 2)).any fun i =>
      s.poisoned.contains (addr / 64 + i) && decide ((addr / 64 + i) * 64 < addr + read.len)
    .next (s.emit (.hostData addr (s.mem.bytes addr read.len) (bad || read.egressFails)))

/-- CXL_SNOOP (R193, R444): the host snoops a line that a home slice holds. -/
def execCxlSnoop (line : Nat) (s : State) : Host.Outcome State Fault Refusal :=
  if s.paKind (line * 64) = .host ∧ s.pf.ready.getLsbD 6 then .next (s.emit (.snoopData line (s.mem.bytes (line * 64) 64)))
  else .next s

/-! ### Shoot-downs and power gating (R420, R421) -/

/-- SHOOTDOWN_GO (R420). -/
def execShootdownGo (pav : Nat) (ctx : BitVec 16) (s : State) : Host.Outcome State Fault Refusal :=
  let p := s.pav pav
  if p.sdBusy ∨ !s.pf.locked then .next s
  else
    .next (s.setPav pav { p with sdCtx := ctx, sdBusy := true,
                                 sdOwed := ((List.range 224).map ShootUnit.core) ++ [.die 0, .die 1] })

/-- The cached translation of an address by a page of some size overlaps the range of a shoot-down (R420, R421); SIZE 0 is the
whole context, and size 0 says that none was used. -/
def Pavilion.shotDown (p : Pavilion) (va : DWord) (size : Nat) : Bool :=
  let page := va.toNat / size * size
  decide (size ≠ 0) && (decide (p.sdSize = 0)
    || decide (page < p.sdAddr.toNat + p.sdSize.toNat) && decide (p.sdAddr.toNat < page + size))

/-- An access that used a translation of a unit in the range of a shoot-down is under way: it waits for the partner card, or is a
contribution to a collective. -/
def State.shotAccess (s : State) (pav : Nat) (unit : ShootUnit) : Bool :=
  let p := s.pav pav
  s.fabric.any (fun r => r.ctx == ctxKey pav p.sdCtx.toNat && p.shotDown r.ask.va r.ask.page && match unit, r.unit with
    | .die d, .coverage e => d == e
    | .die d, .queue _ _ => d == dieOf r.core
    | .die d, .resume e _ => d == e
    | .core _, .coverage _ => false
    | .core _, .queue _ _ => false
    | .core _, .resume _ _ => false
    | .core c, .matrix q => c / 2 == q
    | .core c, _ => c == r.core
    | .die _, _ => false)
  || s.colls.any fun m => m.pav == pav && m.ctx == p.sdCtx.toNat && p.shotDown m.va m.page && decide (unit = .core m.core)

/-- The accesses that used a unit's translations in the range of a shoot-down are performed as far as this card does it: a core's
stores reach their homes, those of ended and stopped waves too, and the replicas of DR pages, and a die's samples go to
memory (R421). -/
def State.performShot (s : State) (pav : Nat) (unit : ShootUnit) : State :=
  let p := s.pav pav
  let ctx := ctxKey pav p.sdCtx.toNat
  match unit with
  | .core c =>
    let used := (s.stores.filter fun (x : PendingStore) => x.core == c && x.ctx == ctx && p.shotDown x.va x.page).map PendingStore.agent
    (s.performIf fun x => used.contains x.agent).drainReplica (dieOf c)
  | .die d => s.spillSamples d fun x => ctxKey x.pav x.ctx == ctx && p.shotDown x.va x.page

/-- SHOOTDOWN_ACK (R421): a unit has discarded its translations, and the accesses that used them are performed; while one is still
under way it does not acknowledge. -/
def execShootdownAck (pav : Nat) (unit : ShootUnit) (s : State) : Host.Outcome State Fault Refusal :=
  let p := s.pav pav
  if !p.sdBusy ∨ !p.sdOwed.contains unit then .next s
  else
    let s := s.performShot pav unit
    if s.shotAccess pav unit then .next s
    else
      let owed := dropIf (fun u => u == unit) p.sdOwed
      .next (s.setPav pav { s.pav pav with sdOwed := owed, sdBusy := !owed.isEmpty })

/-- The core has no wave, block or engine work. -/
def State.coreIdle (s : State) (core : Nat) : Bool :=
  let c := s.core core
  !(s.waves.any fun w => coreOf w.1 == core) && !(s.blocks.any fun b => (b.2.half core).isSome)
    && (c.chans.toList.all fun l => l.isEmpty) && c.fifo.isEmpty && c.walkers.isEmpty && c.inbox.isEmpty

/-- CORE_POWER_GATING (R421): an idle core is gated, its TLB flushed. -/
def execCorePowerGating (core : Nat) (s : State) : Host.Outcome State Fault Refusal :=
  if core < 224 ∧ s.coreIdle core then .next (s.setCore core { s.core core with gated := true }) else .next s

/-- CORE_POWER_UNGATING (R421). -/
def execCorePowerUngating (core : Nat) (s : State) : Host.Outcome State Fault Refusal :=
  .next (s.setCore core { s.core core with gated := false })

/-! ### Page faults and their answers (R419) -/

/-- The KIND codes. -/
def accessCode : AccessKind → Nat
  | .read => 0 | .write => 1 | .atomic => 2 | .fetch => 3 | .tableRead => 4

/-- The UNIT codes. -/
def FaultUnit.code : FaultUnit → Nat
  | .wave _ => 0 | .walker _ => 1 | .copy _ _ => 2 | .sampler _ => 3 | .coverage _ => 4 | .gather _ => 5 | .coll _ => 5
  | .matrix _ => 6 | .queue _ _ => 7 | .resume _ _ => 7 | .ingress _ => 7

/-- The CORE field: 0xFFFF for a base-die unit. -/
def PendingFault.coreField (f : PendingFault) : Nat :=
  match f.unit with
  | .wave _ => f.core
  | .sampler _ => f.core
  | .gather _ => f.core
  | .coll _ => f.core
  | .walker _ => f.core
  | .copy _ _ => f.core
  | .matrix _ => f.core
  | _ => 0xFFFF

/-- The 32 bytes of a fault record. -/
def PendingFault.bytes (f : PendingFault) : List Byte :=
  leBytes f.va.toNat 8 ++ leBytes f.id 4 ++ leBytes (accessCode f.kind) 1 ++ leBytes f.unit.code 1 ++ leBytes f.coreField 2
    ++ leBytes f.ctx 2 ++ leBytes 0 14

/-- The pending fault of an identifier. -/
def State.pendingFault (s : State) (pav : Nat) (fltid : Word) : Option PendingFault :=
  (s.pav pav).faults.find? fun f => decide (BitVec.ofNat 32 f.id = fltid)

/-- Remove a pending fault. -/
def State.dropFault (s : State) (pav id : Nat) : State :=
  s.setPav pav { s.pav pav with faults := dropIf (fun f => f.id == id) (s.pav pav).faults }

/-- Change the transfers of a channel. -/
def State.mapTransfers (s : State) (core ch : Nat) (f : Transfer → Transfer) : State :=
  let c := s.core core
  s.setCore core { c with chans := c.chans.mapIdx fun i l => if i = ch then l.map f else l }

/-- Change the operations of a matrix unit. -/
def State.mapOps (s : State) (pair : Nat) (f : MxOp → MxOp) : State :=
  s.setUnit pair { s.unit pair with ops := (s.unit pair).ops.map f }

/-- Change the binned triangles of a die. -/
def State.mapBinned (s : State) (die : Nat) (f : Triangle → Triangle) : State :=
  s.setCover die { s.cover die with binned := (s.cover die).binned.map f }

/-- Change the resume entries of a class of a die. -/
def State.mapResume (s : State) (die cls : Nat) (f : ResumeEntry → ResumeEntry) : State :=
  let d := s.dist die
  s.setDist die { d with resume := d.resume.mapIdx fun c l => if c = cls then l.map f else l }

/-- Mark the log entries of a fault (R213). -/
def Wave.markLog (w : Wave) (id : Nat) (st : LogState) : Wave :=
  { w with log := w.log.map fun e => if e.fltid = some id then { e with fltid := none, state := st } else e }

/-- The instruction at the issue point waits for the answer to a fault (R210). -/
def Wave.faultsOn (w : Wave) (id : Nat) : Bool := decide (w.wait = .fault id) || decide (w.wait = .logRoom id)

/-- The retry of a wave's instruction, or of one of its log entries (R210, R213). -/
def State.retryWave (s : State) (id k : Nat) : State :=
  match s.wave k with
  | some w =>
    let w := w.markLog id .resolved
    s.setWave k (if w.faultsOn id then { w with wait := .none } else w)
  | none => s

/-- The retry of a unit: it translates again when it goes on (R419). -/
def State.retryUnit (s : State) (id : Nat) (unit : FaultUnit) : State :=
  match unit with
  | .wave k => s.retryWave id k
  | .sampler k => s.retryWave id k
  | .gather k => s.retryWave id k
  | .walker k =>
    match s.walker k with
    | some w =>
      let w := { w with faulted := w.faulted.filter fun f => f != id }
      s.setWalker k (if w.wait = .fault id then { w with wait := .none } else w)
    | none => s
  | .copy core ch => s.mapTransfers core ch fun t => if t.fault = some id then { t with fault := none } else t
  | .matrix pair => s.mapOps pair fun o => if o.fault = some id then { o with fault := none } else o
  | .coverage die => s.mapBinned die fun t => if t.fault = some id then { t with fault := none } else t
  | .queue pav q => s.setQueue pav q { s.queue pav q with fault := none }
  | .resume die cls => s.mapResume die cls fun e => if e.fault = some id then { e with fault := none } else e
  | .coll _ => s
  | .ingress _ => s

/-- The record that a distributor unit holds, its wait over. -/
def State.heldHead (s : State) (unit : FaultUnit) : Option Head :=
  match unit with
  | .queue pav q => some { die := s.queueHome pav q, queue := some q, pav := pav, ctx := s.queueCtx pav q,
                           cls := descClass (s.desc pav q), record := s.headEntry pav q, mayPriv := false, carried := none,
                           answers := [] }
  | .resume die cls =>
    (((s.dist die).resume[cls]?).getD []).head?.map fun e =>
      { die := die, queue := none, pav := e.pav, ctx := e.ctx, cls := cls, record := e.record, mayPriv := false,
        carried := none, answers := [] }
  | _ => none

/-! ### The ingress (R423 to R425) -/

/-- A field of import entry `i`. -/
def State.importField (s : State) (i off n : Nat) : Nat :=
  leNat ((List.range n).map fun k => (Assoc.find s.pf.imports (32 * i + off + k)).getD 0)

/-- The pavilion of an import's context: the lowest one in which it is valid. -/
def State.importPav (s : State) (ctx : Nat) : Nat := ((List.range 16).find? fun p => s.ctxValid p ctx).getD 0

/-- PERM allows the kind. -/
def permAllows (perm : Nat) : AccessKind → Bool
  | .read => decide (perm / 2 % 2 = 1)
  | .write => decide (perm / 4 % 2 = 1)
  | .atomic => decide (perm / 8 % 2 = 1)
  | _ => false

/-- Checks 1 to 4 of R424: the cause of the first that fails. -/
def State.importCheck (s : State) (r : IngressReq) : Option Nat :=
  let i := r.index
  if s.pf.impcount.toNat ≤ i ∨ s.importField i 4 1 % 2 = 0 ∨ 16 ≤ s.importField i 4 1 ∨ s.importField i 5 1 ≠ 0
      ∨ s.importField i 24 8 ≠ 0 then some 1
  else if s.importField i 0 4 ≠ r.key.toNat then some 2
  else if s.importField i 16 8 < r.offset + r.size then some 3
  else if !permAllows (s.importField i 4 1) r.kind then some 4
  else none

/-- The value a partner's atomic stores (R161). -/
def atomicValue (r : IngressReq) (m x e : DWord) : DWord :=
  let t := ETy.ofCode r.ty
  match r.op.toNat with
  | 0 => atomicAdd t r.sat m x
  | 1 => extreme false t m x
  | 2 => extreme true t m x
  | 3 => m &&& x
  | 4 => m ||| x
  | 5 => m ^^^ x
  | 6 => x
  | _ => if t.pattern m = t.pattern e then x else m

/-- An answer leaves for the partner card while the link is up (R457). -/
def State.answerPartner (s : State) (m : OutMsg) : State := if s.pf.ualup then s.emit m else s

/-- Perform an accepted access and answer it (R193, R425). -/
def State.ingressPerform (s : State) (id ctx : Nat) (r : IngressReq) (l : List Span) : State :=
  let s := if r.kind = .atomic then s.settle l else s
  let old := s.homeBytes l
  let bad := l.any s.spanPoisoned
  match r.kind with
  | .write => (s.engineStore ctx (spanCells l (r.data.take r.size))).answerPartner (.ingressData id [] false)
  | .atomic =>
    let v (bs : List Byte) : DWord := BitVec.ofNat 64 (leNat bs)
    let new := atomicValue r (v old) (v (r.data.take r.size)) (v ((r.data.drop r.size).take r.size))
    (if bad then s else s.engineStore ctx (spanCells l (leBytes new.toNat r.size))).answerPartner (.ingressData id old bad)
  | _ => s.answerPartner (.ingressData id old bad)

/-- Translate an accepted access and perform it; a resolvable fault waits. An atomic that is misaligned or crosses a bound of the
heap cannot be performed (R162, R411, assumption 39). -/
def State.ingressTry (s : State) (id : Nat) (r : IngressReq) : State :=
  let ctx := s.importField r.index 6 2
  let pav := s.importPav ctx
  let va := s.importField r.index 8 8 + r.offset
  let who : Who := { core := 0, pav := pav, ctx := ctx, block := s.fresh, uid := s.fresh }
  let refuse (s : State) : State := (s.ingressFailure 5 r.index pav ctx r.offset).answerPartner (.ingressFault id)
  let t := s.setCore 0 (s.loadCtx {} pav ctx)
  if r.kind = .atomic ∧ (va % r.size ≠ 0 ∨ crossesHeap (t.core 0) va r.size) then refuse s
  else match t.resolve who r.kind false va r.size with
  | .error (.fault a) =>
    if s.faultRing pav then
      let f := s.fresh
      let s := s.pendFault pav ctx 0xFFFF (BitVec.ofNat 64 a) r.kind (.ingress id) 0
      { s with ingress := s.ingress ++ [{ id := id, req := r, pav := pav, ctx := ctx, va := BitVec.ofNat 64 a, fault := some f }] }
    else refuse s
  | .error _ => refuse s
  | .ok l => if l.any fun x => x.partner then refuse s else s.ingressPerform id who.ctxKey r l

/-- INGRESS_REQUEST (R423 to R425). -/
def execIngressRequest (r : IngressReq) (s : State) : Host.Outcome State Fault Refusal :=
  let id := s.fresh
  let ctx := s.importField r.index 6 2
  if !s.pf.ualup then .next s
  else match s.importCheck r with
    | some c => .next ((s.ingressFailure c r.index (s.importPav ctx) ctx r.offset).bump.answerPartner (.ingressFault id))
    | none => .next (s.bump.ingressTry id r)

/-- INGRESS_TIMEOUT (R424 cause 6): an accepted access that has not completed. -/
def execIngressTimeout (id : Nat) (s : State) : Host.Outcome State Fault Refusal :=
  match s.ingress.find? fun p => p.id == id with
  | none => .next s
  | some p =>
    let s := { s with ingress := dropIf (fun x => x.id == id) s.ingress }
    let s := match p.fault with | some f => s.dropFault p.pav f | none => s
    .next ((s.ingressFailure 6 p.req.index p.pav p.ctx p.req.offset).answerPartner (.ingressFault id))

/-- Take an ingress access out of its wait. -/
def State.takeIngress (s : State) (id : Nat) : Option (IngressPending × State) :=
  (s.ingress.find? fun p => p.id == id).map fun p => (p, { s with ingress := dropIf (fun x => x.id == id) s.ingress })

/-! ### The verdicts (R419) -/

/-- The unresolvable path of a wave's instruction, or of one of its log entries. -/
def State.refuseWave (s : State) (f : PendingFault) (k : Nat) : State :=
  match s.wave k with
  | some w =>
    if w.faultsOn f.id then
      s.raiseTrap k { w with wait := .none } { cause := .accessViolation, lanes := f.lanes, addr := f.va }
    else s.setWave k (w.markLog f.id (.unresolvable .accessViolation))
  | none => s

/-- The unresolvable path of a unit. -/
def State.refuseUnit (s : State) (pav : Nat) (f : PendingFault) : State :=
  match f.unit with
  | .wave k => s.refuseWave f k
  | .sampler k => s.refuseWave f k
  | .gather k => s.refuseWave f k
  | .walker k =>
    match s.walker k with
    | some w =>
      if w.wait = .fault f.id ∨ w.faulted = some f.id then s.endWalker k { w with faulted := none } .illegal f.va else s
    | none => s
  | .copy _ _ => s.terminate pav f.ctx Cause.accessViolation.code 0
  | .matrix _ => s.terminate pav f.ctx Cause.accessViolation.code 0
  | .coverage _ => s.terminate pav f.ctx Cause.accessViolation.code 0
  | .coll _ => s.terminate pav f.ctx Cause.accessViolation.code 0
  | .queue _ _ => match s.heldHead f.unit with | some h => s.refuseHead h 4 | none => s
  | .resume _ _ => match s.heldHead f.unit with | some h => s.refuseHead h 4 | none => s
  | .ingress id =>
    match s.takeIngress id with
    | some (p, s) => (s.ingressFailure 5 p.req.index p.pav p.ctx p.req.offset).answerPartner (.ingressFault id)
    | none => s

/-- FAULT_RETRY (R419): the unit translates again. -/
def execFaultRetry (pav : Nat) (fltid : Word) (s : State) : Host.Outcome State Fault Refusal :=
  match s.pendingFault pav fltid with
  | none => .next s
  | some f =>
    let s := s.dropFault pav f.id
    match f.unit with
    | .ingress id =>
      match s.takeIngress id with
      | some (p, s) => .next (s.ingressTry id p.req)
      | none => .next s
    | u => .next (s.retryUnit f.id u)

/-- FAULT_UNRESOLVABLE (R419). -/
def execFaultUnresolvable (pav : Nat) (fltid : Word) (s : State) : Host.Outcome State Fault Refusal :=
  match s.pendingFault pav fltid with
  | none => .next s
  | some f => .next ((s.dropFault pav f.id).refuseUnit pav f)

/-- FAULT_RECORD_POST (R419): the oldest record not posted reaches the ring once it has room; with no ring the fault is
unresolvable. -/
def execFaultRecordPost (pav : Nat) (s : State) : Host.Outcome State Fault Refusal :=
  let p := s.pav pav
  let base := p.fltring.toNat
  match p.faults.find? fun f => !f.posted with
  | none => .next s
  | some f =>
    match s.ringCount base 32 with
    | none => .next ((s.dropFault pav f.id).refuseUnit pav f)
    | some n =>
      if s.ringRoom base n 1 then
        let s := s.ringPost base 32 f.bytes
        .next (s.setPav pav { s.pav pav with
          faults := (s.pav pav).faults.map fun x => if x.id = f.id then { x with posted := true } else x })
      else .next s

/-! ### Answers of the partner card (R426, R460, R463) -/

/-- Some request of a group has no answer yet. -/
def State.groupOpen (s : State) (group : Nat) : Bool := s.fabric.any fun r => r.group == group

/-- The wait for a group after an answer to it. -/
def State.groupWait (s : State) (group : Nat) (w : Option Nat) : Option Nat :=
  if w = some group ∧ !s.groupOpen group then none else w

/-- Give log entries an answer to a request of their replays. -/
def State.answerLog (s : State) (r : FabricReq) (a : Answer) (log : List LogEntry) : List LogEntry :=
  log.map fun e => if e.fabric = some r.group then
    { e with fabric := s.groupWait r.group e.fabric, answers := e.answers ++ [a] } else e

/-- Give the entries of a wave an answer, those that a handler holds too. -/
def State.answerEntries (s : State) (r : FabricReq) (a : Answer) (w : Wave) : Wave :=
  { w with log := s.answerLog r a w.log, handler := w.handler.map fun h => { h with log := s.answerLog r a h.log } }

/-- Give a wave an answer: its instruction goes on with the last one of its group, and so do the replays of its entries, also
those of a wave that a pre-emption holds (R213, R220). -/
def State.answerWave (s : State) (r : FabricReq) (a : Answer) (k : Nat) : State :=
  let kept (b : SavedBlock) : SavedBlock := { b with waves := b.waves.map fun (x : Nat × Wave) => (x.1, s.answerEntries r a x.2) }
  let s := { s with pavs := s.pavs.map fun (p : Nat × Pavilion) => (p.1, { p.2 with savedBlocks := p.2.savedBlocks.map kept }) }
  match s.wave k with
  | some w =>
    if w.wait = .fabric r.group then
      s.setWave k { w with wait := if s.groupOpen r.group then w.wait else .none, answers := w.answers ++ [a] }
    else s.setWave k (s.answerEntries r a w)
  | none => s

/-- Give a unit the answer to a request, which has left the list: it goes on with the last one of the group. -/
def State.answerUnit (s : State) (r : FabricReq) (reply : FabricReply) : State :=
  let a : Answer := { ask := r.ask, reply := reply }
  let g := s.groupWait r.group
  match r.unit with
  | .wave k => s.answerWave r a k
  | .sampler k => s.answerWave r a k
  | .gather k => s.answerWave r a k
  | .walker k =>
    match s.walker k with
    | some w =>
      if w.wait = .fabric r.group ∧ !s.groupOpen r.group then s.setWalker k { w with wait := .none, answers := w.answers ++ [a] }
      else if w.wait = .fabric r.group ∨ w.isRemote then s.setWalker k { w with answers := w.answers ++ [a] }
      else s
    | none => s
  | .copy core ch =>
    s.mapTransfers core ch fun t => if t.fabric = some r.group then { t with fabric := g t.fabric, answers := t.answers ++ [a] } else t
  | .matrix pair =>
    s.mapOps pair fun o => if o.fabric = some r.group then { o with fabric := g o.fabric, answers := o.answers ++ [a] } else o
  | .coverage die =>
    if r.ask.kind = .write ∧ replyFault (some reply) then
      s.terminate (r.ctx / 65536) (r.ctx % 65536) Cause.fabricFault.code 0
    else if r.ask.kind = .write then s.wakeRanges
    else s.mapBinned die fun t => if t.fabric = some r.group then { t with fabric := g t.fabric, answers := t.answers ++ [a] } else t
  | .queue pav q =>
    let st := s.queue pav q
    if st.fabric = some r.group then s.setQueue pav q { st with fabric := g st.fabric, answers := st.answers ++ [a] } else s
  | .resume die cls =>
    s.mapResume die cls fun e => if e.fabric = some r.group then { e with fabric := g e.fabric, answers := e.answers ++ [a] } else e
  | .coll id =>
    { s with colls := s.colls.map fun (m : CollMsg) =>
        if m.id = id then { m with fabric := g m.fabric, answers := m.answers ++ [a] } else m }
  | .ingress _ => s

/-- FABRIC_RESPONSE (R426). -/
def execFabricResponse (req : Nat) (reply : FabricReply) (s : State) : Host.Outcome State Fault Refusal :=
  match s.fabric.find? fun r => r.id == req with
  | none => .next s
  | some r =>
    if s.pf.ualup then .next ({ s with fabric := dropIf (fun x => x.id == req) s.fabric }.answerUnit r reply) else .next s

/-- FABRIC_TIMEOUT (R426): no response within 32 µs acts as a fault response. -/
def execFabricTimeout (req : Nat) (s : State) : Host.Outcome State Fault Refusal :=
  match s.fabric.find? fun r => r.id == req with
  | none => .next s
  | some r => .next ({ s with fabric := dropIf (fun x => x.id == req) s.fabric }.answerUnit r .faultResponse)

end Sys2Proof.Machine
end

