-- ==== Sys2Proof/Machine/Debug.lean ====
section
/-! DEFINITION. The debug modules (R435 to R438, R443), gang stop (R221) and Belvedere (R441, R442). -/

namespace Sys2Proof.Machine

/-! ### Attachment and halting (R435, R438) -/

/-- Change a core's debug module. -/
def State.onDebug (s : State) (core : Nat) (f : Debug → Debug) : State :=
  s.setCore core { s.core core with dbg := f (s.core core).dbg }

/-- A context of the number has the debuggable bit in some pavilion. -/
def State.anyDebuggable (s : State) (ctx : Nat) : Bool := s.ctxs.any fun c => c.1 % 65536 == ctx && c.2.debuggable

/-- DEBUG_ATTACH (R435, R443, R453). -/
def execDebugAttach (core : Nat) (ctx : BitVec 16) (s : State) : Host.Outcome State Fault Refusal :=
  let ok := s.accepted 4 && s.anyDebuggable ctx.toNat
  if core < 224 then .next (s.onDebug core fun d => { d with ctx := ctx.toNat, attached := ok, refused := !ok }) else .next s

/-- DEBUG_DETACH (R435). -/
def execDebugDetach (core : Nat) (s : State) : Host.Outcome State Fault Refusal :=
  .next (s.onDebug core fun d => { d with attached := false })

/-- DEBUG_HALT (R438): issue stops at an instruction boundary on every slot. -/
def execDebugHalt (core : Nat) (s : State) : Host.Outcome State Fault Refusal :=
  .next (s.onDebug core fun d => { d with halt := true })

/-- Waves whose messages may go on. -/
def State.wakeSenders (s : State) : State :=
  { s with waves := s.waves.map fun (x : Nat × Wave) => if x.2.wait = .engines then (x.1, { x.2 with wait := .none }) else x }

/-- DEBUG_RELEASE (R438): issue goes on, after a debugger's halt or a gang stop, and so do the senders that wait. -/
def execDebugRelease (core : Nat) (s : State) : Host.Outcome State Fault Refusal :=
  let s := s.onDebug core fun d => { d with halt := false }
  .next (s.setCore core { s.core core with gangHalt := false }).wakeSenders

/-! ### Commands on a halted wave (R436) -/

/-- A wave that is halted, on its own or with its core. -/
def State.haltedWave (s : State) (core slot : Nat) : Option (Nat × Wave) :=
  let k := core * 32 + slot
  (s.wave k).bind fun w => if w.wait = .halted ∨ (s.core core).halted then some (k, w) else none

/-- Let a halted wave run. -/
def Wave.unhalt (w : Wave) : Wave := if w.wait = .halted then { w with wait := .none } else w

/-- DEBUG_STEP (R436): sets `WS.STEP` and resumes. -/
def execDebugStep (core slot : Nat) (s : State) : Host.Outcome State Fault Refusal :=
  match s.haltedWave core slot with
  | some (k, w) => .next (s.setWave k { w with wsStep := true }.unhalt)
  | none => .next s

/-- DEBUG_SAVE (R436, R443): the image of R214 goes to BUF. -/
def execDebugSave (core slot : Nat) (s : State) : Host.Outcome State Fault Refusal :=
  match s.haltedWave core slot with
  | some (k, w) =>
    let who := s.whoOf k w
    if s.debuggable who.pav who.ctx then
      .next ((s.saveImage k w (s.core core).dbg.buf.toNat w.wsCause.toNat).getD s)
    else .next s
  | none => .next s

/-- DEBUG_RESTORE (R217, R436): the image at BUF replaces the wave's state; the wave stays halted. -/
def execDebugRestore (core slot : Nat) (s : State) : Host.Outcome State Fault Refusal :=
  match s.haltedWave core slot with
  | some (k, w) =>
    let saved : SavedWave := { depth := w.depth, kinds := w.kinds, step := w.wsStep, priv := w.wsPriv, log := w.log }
    match s.restoreWave k w saved (s.core core).dbg.buf.toNat with
    | some (.ok w') => .next (s.setWave k { w' with handler := w.handler, trapLog := w.trapLog, wait := w.wait })
    | some (.error c) => .next (s.takeTrap k w { cause := c, lanes := 0, addr := 0 } w.pc w.pc 0)
    | none => .next s
  | none => .next s

/-- DEBUG_SKIP_BREAKPOINT (R436). -/
def execDebugSkipBreakpoint (core slot : Nat) (s : State) : Host.Outcome State Fault Refusal :=
  match s.haltedWave core slot with
  | some (k, w) => .next (s.setWave k { w with skipBreak := true })
  | none => .next s

/-- DEBUG_RESUME (R436): the wave restarts at its issue point. -/
def execDebugResume (core slot : Nat) (s : State) : Host.Outcome State Fault Refusal :=
  match s.haltedWave core slot with
  | some (k, w) => .next (s.setWave k w.unhalt)
  | none => .next s

/-! ### Gang stop (R221) -/

/-- The cores that hold a block of a pavilion. -/
def State.pavCores (s : State) (pav : Nat) : List Nat :=
  (List.range 224).filter fun c => s.blocks.any fun b => b.2.pav == pav && (b.2.half c).isSome

/-- Stop one core and latch its record. -/
def State.gangStop (s : State) (core : Nat) : State :=
  let c := s.core core
  s.setCore core { c with gangHalt := true, dbg := { c.dbg with gsClock := s.clock, gsSent := c.sent, gsRecv := c.recv, gsValid := true } }

/-- GANG_STOP (R221): every core of the pavilion halts. -/
def execGangStop (pav : Nat) (s : State) : Host.Outcome State Fault Refusal :=
  .next ((s.pavCores pav).foldl State.gangStop s)

/-! ### Belvedere (R441, R442) -/

/-- The run state of a wave and the address its entry carries: the wave that issued in the step before the tick shows that
instruction, and a held trap the address that `TRAPPC` takes. -/
def State.runState (s : State) (k : Nat) (w : Wave) : Nat × DWord :=
  let who := s.whoOf k w
  if !s.debuggable who.pav who.ctx then (12, 0)
  else if (s.core who.core).halted then (8, w.pc)
  else if s.issued.1 + 1 = s.steps ∧ s.issued.2.1 = k then (1, s.issued.2.2)
  else if w.heldTrap.isSome then (8, w.pc)
  else match w.wait with
    | .row => (10, w.pc)
    | .range => (3, w.pc)
    | .passed => (2, w.pc)
    | .none => if s.parked k w then (4, w.pc) else (2, w.pc)
    | .barrier _ => (5, w.pc)
    | .phase => (5, w.pc)
    | .transfer => (5, w.pc)
    | .item _ _ _ => (5, w.pc)
    | .fault id => if s.pavs.any (fun p => p.2.faults.any fun f => f.id == id && f.kind == .fetch) then (6, w.pc) else (11, w.pc)
    | .fabric g => if s.fabric.any (fun r => r.group == g && r.ask.kind == .fetch) then (6, w.pc) else (7, w.pc)
    | .log => (11, w.pc)
    | .logRoom _ => (11, w.pc)
    | .halted => (8, w.pc)
    | .ending => (9, w.pc - 4)
    | _ => (7, w.pc)

/-- The run state of a slot whose wave has ended (R442). -/
def State.exitedState (s : State) (x : Nat × DWord) : Nat × DWord :=
  match s.block x.1 with
  | some b => if s.debuggable b.pav b.ctx then (9, x.2) else (12, 0)
  | none => (12, 0)

/-- The slots of a core that are not empty, ascending, each with its run state and address. -/
def State.slotStates (s : State) (core : Nat) : List (Nat × Nat × DWord) :=
  (List.range 32).filterMap fun i =>
    let k := core * 32 + i
    match s.wave k with
    | some w => some (i, s.runState k w)
    | none => (Assoc.find s.exited k).map fun x => (i, s.exitedState x)

/-- A core's record: tick, core, PRESENT and the entries, padded to 16 bytes. -/
def State.belvedereRecord (s : State) (tick core : Nat) : List Byte :=
  let ws := s.slotStates core
  let present := (ws.map fun x => 2 ^ x.1).foldl (· + ·) 0
  let entry (x : Nat × Nat × DWord) : List Byte := leBytes (x.2.1 + x.2.2.toNat / 4 % 2 ^ 50 * 64) 8
  let body := leBytes tick 8 ++ leBytes core 2 ++ leBytes 0 2 ++ leBytes present 4 ++ ws.flatMap entry
  body ++ List.replicate ((16 - body.length % 16) % 16) 0

/-- Append a record of 16-byte units to a ring, or count it as lost. -/
def State.ringPostUnits (s : State) (base : Nat) (bs : List Byte) : State :=
  match s.ringCount base 16 with
  | none => s
  | some n =>
    let units := bs.length / 16
    let prod := s.devRead base 4
    if s.ringRoom base n units then
      ((List.range units).foldl (fun (s : State) i =>
        s.performCells (cellsFrom (base + 64 + 16 * ((prod + i) % n)) ((bs.drop (16 * i)).take 16))) s).devWrite base 4 (prod + units)
    else (s.devWrite (base + 8) 4 (s.devRead (base + 8) 4 + 1)).devWrite (base + 12) 1 1

/-- The period of the ticks in cycles; none while Belvedere is off (R441, R453). -/
def State.tickPeriod (s : State) : Option Nat :=
  let n := (s.pf.bvctl.extractLsb' 1 5).toNat
  if s.accepted 3 ∧ s.pf.bvctl.getLsbD 0 ∧ 8 ≤ n then some (2 ^ n) else none

/-- BELVEDERE_TICK (R441, R442): at the tick that `CLOCK` has passed, every core latches its slots. -/
def execBelvedereTick (s : State) : Host.Outcome State Fault Refusal :=
  let t := { s with tickDue := false }
  match s.tickPeriod with
  | none => .next t
  | some p =>
    if s.tickDue then
      .next (((List.range 224).map (s.belvedereRecord (s.clock.toNat / p * p))).foldl
        (fun (s : State) r => s.ringPostUnits s.pf.bvring.toNat r) t)
    else .next t

end Sys2Proof.Machine
end

