-- ==== Sys2Proof/Machine/Preempt.lean ====
section
/-! DEFINITION. Pre-emption and resumption (R219, R220, R250, R296, R337, R338, R342, R394, R447), the placement of blocks
with the return of stopped ones (R401, R410), and mapping out a pair (R433, R434). -/

namespace Sys2Proof.Machine

/-! ### What a request names -/

/-- A block of a pavilion that the latest GO of the pavilion names. -/
def State.namedBlock (s : State) (pav b : Nat) : Bool :=
  match s.block b with
  | some x => x.pav == pav && namesCtx (s.pav pav).goCtx x.ctx
  | none => false
/-- A walker of the named contexts. -/
def State.namedWalker (s : State) (pav : Nat) (w : Walker) : Bool :=
  match w.shipped with
  | some h => h.pav == pav && namesCtx (s.pav pav).goCtx h.ctx
  | none => s.namedBlock pav w.block
/-- A launch FIFO entry of the named contexts. -/
def State.namedEntry (s : State) (pav : Nat) (e : LaunchEntry) : Bool :=
  match e.handoff with
  | some m => m.pav == pav && namesCtx (s.pav pav).goCtx m.ctx
  | none => s.namedBlock pav e.block
/-- A triangle of the named contexts. -/
def State.namedTriangle (s : State) (pav : Nat) (t : Triangle) : Bool := t.pav == pav && namesCtx (s.pav pav).goCtx t.ctx

/-- The cores that hold work of the named contexts. -/
def State.namedCores (s : State) (pav : Nat) : List Nat :=
  (List.range 224).filter fun c =>
    (s.blocks.any fun b => s.namedBlock pav b.1 && (b.2.half c).isSome)
      || (s.core c).walkers.any (fun x => s.namedWalker pav x.2) || (s.core c).fifo.any (s.namedEntry pav)

/-- A coverage unit holds work of the named contexts. -/
def State.namedCover (s : State) (pav die : Nat) : Bool :=
  let u := s.cover die
  (u.input ++ u.binned).any (s.namedTriangle pav)
    || u.store.any fun x => x.2.pav == pav && namesCtx (s.pav pav).goCtx x.2.ctx

/-- Every engine that holds work of the named contexts (R219). -/
def State.enginesOf (s : State) (pav : Nat) : List EngineId :=
  let cores := s.namedCores pav
  (cores.flatMap fun c => [.waves c, .millrace c, .copy c, .sampler c])
    ++ (distinct (cores.map pairOf)).map .matrix
    ++ ([0, 1].filter fun d => !cores.isEmpty || s.namedCover pav d).map .coverage

/-! ### The wave engine (R147, R220) -/

/-- The resume record of a wave blocked in `DEQ` (R147). -/
def deqRecord (w : Wave) : Line :=
  lineOf (leBytes w.pc.toNat 8 ++ leBytes w.fp.toNat 8 ++ leBytes 0 4 ++ leBytes w.stage.toNat 1 ++ leBytes w.prio.toNat 1
    ++ leBytes 0 1 ++ leBytes 1 1
    ++ (List.range 10).flatMap fun k => leBytes (lane w.regs (BitVec.ofNat 8 k) w.leadLane).toNat 4)

/-- A wave blocked in `DEQ` writes a resume record and ends. -/
def State.endDeq (s : State) (k : Nat) (w : Wave) (pav q : Nat) : State :=
  let who := s.whoOf k w
  let size := ((s.block w.block).map Block.scratch).getD 0
  let st := s.queue pav q
  let s := s.setQueue pav q { st with waiting := dropIf (fun j => j == k) st.waiting }
  (s.pushResume (dieOf who.core) { record := deqRecord w, pav := who.pav, ctx := who.ctx, byPriv := w.wsPriv,
                                   carried := some (w.gbudget.toNat, size, w.wsPriv) }).endWave k w

/-- A wave stops at an instruction boundary: its image is saved with CAUSE 0 and its barrier arrival is withdrawn; one whose wait is
over stands past its instruction. The area of a wave whose handler runs holds the image of the interrupted wave, and such a
wave is kept as it stands. -/
def State.stopWave (s : State) (k : Nat) : State :=
  match s.wave k with
  | none => s
  | some w =>
    let w := if w.wait = .passed then { w with pc := w.pc + 4 } else w
    match w.wait with
    | .ending => s
    | .saved => s
    | .item pav q _ => s.endDeq k w pav q
    | _ =>
      let who := s.whoOf k w
      let saved := if w.handler.isSome then some s else s.saveImage k w (s.saveArea who.pav who.ctx k) 0
      match saved with
      | none => s.terminate who.pav who.ctx 0 w.pc
      | some s =>
        (s.onBlock w.block fun b => { b with barriers := b.barriers.map fun l => dropIf (fun j => j == k) l }).setWave k
          { w with wait := .saved }

/-- The named waves of a core. -/
def State.namedWaves (s : State) (pav core : Nat) : List (Nat × Wave) :=
  s.waves.filter fun w => coreOf w.1 == core && s.namedBlock pav w.2.block

/-- A wave whose instruction waits for the partner card is not at an instruction boundary. -/
def Wave.asking (w : Wave) : Bool :=
  match w.wait with
  | .fabric _ => true
  | _ => false

/-! ### The Millrace (R250, R251) -/

/-- The walker image of R251. -/
def Walker.image (w : Walker) : List Byte :=
  let n := w.stack.length
  w.w.toList.flatMap (fun x => leBytes x.toNat 8) ++ leBytes w.pc.toNat 8 ++ leBytes w.query.toNat 8 ++ leBytes w.tag.toNat 4
    ++ leBytes w.depth 1 ++ leBytes n 1 ++ leBytes ((if w.f then 1 else 0) + (if w.isRemote then 2 else 0) + 4) 1 ++ leBytes 0 1
    ++ leBytes w.prog.index 4 ++ leBytes 0 4 ++ w.stack.flatMap StackEntry.bytes ++ leBytes 0 (256 - 16 * n)
    ++ (w.nodebuf ++ leBytes 0 256).take 256 ++ leBytes w.noderef.toNat 8 ++ leBytes 0 88

/-- What a stopped walker still waits for: a remote one its entries, and one whose query ended while it was remote the room for its
last entry (R249, R250). Any other carries out its saved step. -/
def Walker.keptWait (w : Walker) : WalkerWait :=
  match w.wait with
  | .remote ref => .remote ref
  | .post e terminal f => if terminal ∧ w.remoteOver then .post e terminal f else .none
  | _ => .none

/-- A walker as it resumes: at the saved step, with the program to be read again. -/
def Walker.stopped (w : Walker) : Walker :=
  { w with wait := w.keptWait, answers := [], struck := none, faulted := none,
           start := match w.start with | .query => .query | .header => .header | _ => .program }

/-- A step of the walker is in progress at the partner card. -/
def Walker.asking (w : Walker) : Bool :=
  match w.wait with
  | .fabric _ => true
  | _ => false

/-- A launch FIFO entry as the area holds it. -/
def State.fifoImage (s : State) (core : Nat) (e : LaunchEntry) : List Byte :=
  leBytes e.query.toNat 8 ++ leBytes e.prog 4 ++ leBytes (s.blockSlotOf e.block core) 1 ++ leBytes 0 3

/-- The Millrace of a core stops. -/
def State.stopMillrace (s : State) (pav core : Nat) : State :=
  let c := s.core core
  let ws := c.walkers.filter fun x => s.namedWalker pav x.2
  let es := c.fifo.filter (s.namedEntry pav)
  let ctxOfEntry (e : LaunchEntry) : Nat := match e.handoff with | some m => m.ctx | none => s.ctxOf e.block
  let p := s.pav pav
  let kept := { p.savedWork with
    walkers := p.savedWork.walkers ++ ws.map fun (x : Nat × Walker) => (core * 64 + x.1, x.2.stopped),
    fifo := p.savedWork.fifo ++ es.map fun e => (core, e) }
  let s' := (s.setPav pav { p with savedWork := kept }).setCore core
    { c with walkers := dropIf (fun x => s.namedWalker pav x.2) c.walkers, fifo := dropIf (s.namedEntry pav) c.fifo }
  let s' := ws.foldl (fun (t : State) x =>
    let ctx := (s.walkerWho (core * 64 + x.1) x.2).ctx
    t.saveArea' core pav ctx (s.saveBase pav ctx + 0xFC00000 + (core * 64 + x.1) * 0x300) x.2.image) s'
  (distinct (es.map ctxOfEntry)).foldl (fun (t : State) ctx =>
    t.saveArea' core pav ctx (s.saveBase pav ctx + 0x10680000 + core * 0x1000)
      ((es.filter fun e => ctxOfEntry e == ctx).flatMap (s.fifoImage core))) s'

/-! ### The copy channels (R296) -/

/-- The state of a transfer as its slot of the copy area holds it. -/
def Transfer.image (t : Transfer) (slot ch : Nat) : List Byte :=
  t.regs.toList.flatMap (fun x => leBytes x.toNat 8) ++ leBytes t.id.toNat 4 ++ leBytes slot 1 ++ leBytes (ch + 4) 1 ++ leBytes 0 2
    ++ leBytes t.doneBytes 8 ++ leBytes t.rbase.toNat 8 ++ leBytes t.ext0.toNat 4 ++ leBytes t.ext1.toNat 4
    ++ leBytes t.rstride.toNat 4 ++ leBytes t.ret.toNat 1 ++ leBytes 0 27

/-- The named transfers of a core that are wholly performed retire (R294). -/
def State.retireDone (s : State) (pav core : Nat) : State :=
  let done (t : Transfer) : Bool := s.namedBlock pav t.block && decide (t.total ≤ t.doneBytes)
  (List.range 4).foldl (fun (s : State) ch =>
    let c := s.core core
    let l := (c.chans[ch]?).getD []
    (l.filter done).foldl (fun (s : State) t => s.retireTransfer t ch)
      (s.setCore core { c with chans := c.chans.setIfInBounds ch (dropIf done l) })) s

/-- The chunk in progress has begun at the partner card: its accesses are asked or answered, and not yet performed. -/
def Transfer.midChunk (t : Transfer) : Bool := t.fault.isNone && (t.fabric.isSome || !t.answers.isEmpty)

/-- The channels of a core stop at a chunk. -/
def State.stopCopies (s : State) (pav core : Nat) : State :=
  let s := s.retireDone pav core
  let c := s.core core
  let ts := (List.range 4).flatMap fun ch =>
    ((c.chans[ch]?.getD []).filter fun t => s.namedBlock pav t.block).map fun t => (ch, t)
  let p := s.pav pav
  let kept := { p.savedWork with transfers := p.savedWork.transfers ++ ts.map fun x =>
    (core, x.1, { x.2 with fault := none, fabric := none, answers := [] }) }
  let s' := (s.setPav pav { p with savedWork := kept }).setCore core
    { c with chans := c.chans.map fun l => dropIf (fun t => s.namedBlock pav t.block) l }
  (ts.zipIdx.foldl (fun (t : State) x =>
    let ctx := s.ctxOf x.1.2.block
    let q := ((ts.take x.2).filter fun y => y.1 == x.1.1 && s.ctxOf y.2.block == ctx).length
    t.saveArea' core pav ctx (s.saveBase pav ctx + 0x10760000 + core * 0x2000 + 128 * (16 * x.1.1 + q))
      (x.1.2.image (s.blockSlotOf x.1.2.block core) x.1.1)) s')

/-! ### The sampler and the coverage units (R394) -/

/-- A sampler stops: its logs are performed and its duplicate filter empties. -/
def State.stopSampler (s : State) (pav core : Nat) : State :=
  let mine := s.logs.filter fun l => l.core == core && l.pav == pav && namesCtx (s.pav pav).goCtx l.ctx
  let s := mine.foldl State.postLog s
  { s with filters := dropIf (fun f => f.core == core) s.filters }

/-- A saved triangle's record. -/
def Triangle.image (t : Triangle) : List Byte :=
  (List.range 9).flatMap (fun i => leBytes ((t.verts[i]?).getD 0).toNat 4) ++ leBytes t.prim.toNat 4 ++ leBytes t.view.toNat 8
    ++ leBytes t.stream 4 ++ leBytes t.token 4 ++ leBytes 0 8

/-- The named contexts that a coverage unit stops for: those with triangles or samples in it, or with blocks on its die. -/
def State.coverCtxs (s : State) (pav die : Nat) : List Nat :=
  let u := s.cover die
  let named (ctx : Nat) : Bool := namesCtx (s.pav pav).goCtx ctx
  let blocks := s.blocks.filter fun b => b.2.pav == pav && b.2.halves.any fun h => dieOf h.core == die
  (distinct (((u.binned ++ u.input).filter fun t => t.pav == pav).map Triangle.ctx
    ++ (u.store.filter fun x => x.2.pav == pav).map (fun x => x.2.ctx) ++ blocks.map fun b => b.2.ctx)).filter named

/-- A coverage unit stops: its tiles of the named contexts go to memory, its uncommitted triangles to the save area of each
context, whose header counts them. -/
def State.stopCover (s : State) (pav die : Nat) : State :=
  let ctxs := s.coverCtxs pav die
  let s := s.spillSamples die fun x => x.pav == pav && namesCtx (s.pav pav).goCtx x.ctx
  let u := s.cover die
  let ts := (u.binned ++ u.input).filter (s.namedTriangle pav)
  let p := s.pav pav
  let kept := { p.savedWork with triangles := p.savedWork.triangles ++ ts.map fun t =>
    (die, { t with fault := none, fabric := none, answers := [] }) }
  let s' := (s.setPav pav { p with savedWork := kept }).setCover die
    { u with input := dropIf (s.namedTriangle pav) u.input, binned := dropIf (s.namedTriangle pav) u.binned }
  ctxs.foldl (fun (t : State) ctx =>
    let mine := ts.filter fun x => x.ctx == ctx
    t.saveArea' (die * 112) pav ctx (s.saveBase pav ctx + 0x17920000 + die * 0x400000)
      (leBytes mine.length 4 ++ leBytes 0 60 ++ mine.flatMap Triangle.image)) s'

/-! ### The matrix units (R337, R338, R342) -/

/-- Save the state of a pair's unit and the record caches of the named blocks on its cores. -/
def State.saveUnit (s : State) (pav pair : Nat) : State :=
  let u := s.unit pair
  let mine := match u.owner with | some b => s.namedBlock pav b | none => false
  let blocks := s.blocks.filter fun b => s.namedBlock pav b.1 && ((b.2.half (2 * pair)).isSome || (b.2.half (2 * pair + 1)).isSome)
  let s' := if mine then
      let p := s.pav pav
      (s.setPav pav { p with savedWork := { p.savedWork with units := p.savedWork.units ++ [(pair, { u with redx := [] })] } }).setUnit pair
        { ({} : MatrixUnit) with redx := u.redx }
    else s
  (distinct (blocks.map fun b => b.2.ctx)).foldl (fun (t : State) ctx =>
    let own := mine && (match u.owner with | some b => s.ctxOf b == ctx | none => false)
    let here := blocks.filter fun b => b.2.ctx == ctx
    [2 * pair, 2 * pair + 1].foldl (fun (t : State) c =>
      t.saveArea' c pav ctx (s.saveBase pav ctx + 0x10920000 + c * 0x80000) (s.matrixImage (if own then u else {}) c here)) t) s'

/-! ### Acknowledgement and completion (R219, R342) -/

/-- Elements of named blocks that are still at network interfaces reach their scratchpads before these are saved. -/
def State.flushNamed (s : State) (pav : Nat) : State :=
  s.cores.foldl (fun (t : State) c =>
    let mine (m : ElementMsg) : Bool := s.namedBlock pav m.block
    (c.2.inbox.filter mine).foldl (fun t m => t.performElement m.op)
      (t.setCore c.1 { t.core c.1 with inbox := dropIf mine (t.core c.1).inbox })) s

/-- Engine work of a block that a pre-emption has saved. -/
def SavedWork.holds (k : SavedWork) (b : Nat) : Bool :=
  k.walkers.any (fun x => x.2.block == b) || k.fifo.any (fun x => x.2.block == b) || k.transfers.any (fun x => x.2.2.block == b)
    || k.units.any fun x => x.2.owner == some b

/-- The cells and poisoned lines of an allocation, as offsets. -/
def State.scratchImage (s : State) (h : Half) (size : Nat) : List Host.Cell × List Nat :=
  let lo := scratchKey h.core h.base
  ((s.mem.filter fun c => decide (lo ≤ c.1) && decide (c.1 < lo + size)).map fun c => (c.1 - lo, c.2),
   (s.poisoned.filter fun l => decide (lo ≤ l * 64) && decide (l * 64 < lo + size)).map fun l => l * 64 - lo)

/-- A stopped block leaves its cores (R220). -/
def State.saveBlock (s : State) (pav b : Nat) : State :=
  match s.block b with
  | none => s
  | some x =>
    let cls := ((Assoc.find s.grids x.grid).map Grid.cls).getD 0
    let saved : SavedBlock :=
      { key := b, cls := cls, block := { x with barriers := Vector.replicate 16 [] },
        waves := s.waves.filter fun w => w.2.block == b, scratch := x.halves.map fun h => s.scratchImage h x.scratch }
    let p := s.pav pav
    let s := s.setPav pav { p with savedBlocks := p.savedBlocks ++ [saved] }
    let s := x.halves.foldl (fun (t : State) h => t.clearScratch h.core h.base x.scratch) s
    { s with waves := dropIf (fun w => w.2.block == b) s.waves, blocks := Assoc.erase s.blocks b }

/-- The collector holds every acknowledgement: the blocks leave, BUSY clears, SAVED sets and the event is posted. -/
def State.finishPreempt (s : State) (pav : Nat) : State :=
  let p := s.pav pav
  if !p.busy ∨ !p.stopOwed.isEmpty then s
  else
    let s := s.flushNamed pav
    let out := s.blocks.filter fun b => s.namedBlock pav b.1
      && (!b.2.alive.isEmpty || (s.pav pav).savedWork.holds b.1 || s.blockBusy b.1)
    let s := out.foldl (fun (t : State) b => t.saveBlock pav b.1) s
    let p := s.pav pav
    (s.setPav pav { p with busy := false, saved := true, savedCtxs := p.savedCtxs ++ [p.goCtx] }).pavEvent pav 4 p.goCtx.toNat
      p.goCtx.toNat 0

/-- An engine is at its granularity (R219): a wave engine at an instruction boundary; the others after every wave engine has
stopped, a coverage unit also after the Millraces. -/
def State.mayStop (s : State) (pav : Nat) (e : EngineId) : Bool :=
  let owed := (s.pav pav).stopOwed
  let wavesDone := !owed.any fun x => match x with | .waves _ => true | _ => false
  match e with
  | .waves c => !(s.namedWaves pav c).any fun w => w.2.asking
  | .millrace c => wavesDone && !(s.core c).walkers.any fun x => s.namedWalker pav x.2 && x.2.asking
  | .copy c => wavesDone && !(s.core c).chans.toList.any fun l => l.any fun t => s.namedBlock pav t.block && t.midChunk
  | .matrix p => wavesDone && !((s.unit p).ops ++ (s.unit p).sent).any fun o => s.namedBlock pav o.block
  | .sampler _ => wavesDone
  | .coverage d =>
    wavesDone && (!owed.any fun x => match x with | .millrace _ => true | _ => false)
      && !(s.cover d).binned.any fun t => s.namedTriangle pav t && t.fabric.isSome

/-- An engine stops and saves its state; the matrix units save once all of them have acknowledged (R342). -/
def State.stopEngine (s : State) (pav : Nat) (e : EngineId) : State :=
  match e with
  | .waves c => (s.namedWaves pav c).foldl (fun t w => t.stopWave w.1) s
  | .millrace c => s.stopMillrace pav c
  | .copy c => s.stopCopies pav c
  | .sampler c => s.stopSampler pav c
  | .coverage d => s.stopCover pav d
  | .matrix _ =>
    if (s.pav pav).stopOwed.any fun x => match x with | .matrix _ => true | _ => false then s
    else (distinct ((s.namedCores pav).map pairOf)).foldl (fun t p => t.saveUnit pav p) s

/-- ENGINE_STOP (R219). -/
def execEngineStop (pav : Nat) (engine : EngineId) (s : State) : Host.Outcome State Fault Refusal :=
  let p := s.pav pav
  if !p.stopOwed.contains engine ∨ !s.mayStop pav engine then .next s
  else
    .next (((s.setPav pav { p with stopOwed := dropIf (fun e => e == engine) p.stopOwed }).stopEngine pav engine).finishPreempt pav)

/-- Start a pre-emption of a pavilion (R219). -/
def State.startPreempt (s : State) (pav : Nat) (pctx : BitVec 16) : State :=
  let s := s.setPav pav { s.pav pav with pctx := pctx, goCtx := pctx, busy := true }
  (s.setPav pav { s.pav pav with stopOwed := s.enginesOf pav }).finishPreempt pav

/-- PREEMPT_GO (R219, R447): ignored while BUSY is 1. -/
def execPreemptGo (pav : Nat) (pctx : BitVec 16) (s : State) : Host.Outcome State Fault Refusal :=
  if !s.pf.locked ∨ 16 ≤ pav ∨ (s.pav pav).busy then .next s else .next (s.startPreempt pav pctx)

/-! ### Resumption (R220, R250, R296, R337, R434) -/

/-- The saved waves of a core, in ascending WAVEID order. -/
def SavedBlock.wavesOn (b : SavedBlock) (core : Nat) : List (Nat × Wave) :=
  sortBy (fun w => w.2.waveId) (b.waves.filter fun w => coreOf w.1 == core)

/-- Every wave of a block held a slot that a hosted core has too, the first ones included where they have ended, and so does its
allocation (R434). -/
def SavedBlock.fitsHosted (b : SavedBlock) : Bool :=
  b.waves.all (fun w => decide (w.1 % 32 < 16)) && b.block.halves.all (fun h => decide (h.blockSlot < 16))
    && decide (b.block.scratch ≤ 0x20000)

/-- The waves' former slots are free, with room for their rows, and no other block has the block slot (R39). -/
def State.formerSlots (s : State) (b : SavedBlock) (h : Half) : Bool :=
  let core := h.core
  let ws := b.wavesOn core
  ws.all (fun w => (s.wave w.1).isNone) && !(s.blockSlots core).contains (core * 32 + h.blockSlot)
    && (List.range 4).all fun q =>
      decide (((ws.filter fun w => w.1 / 8 == core * 4 + q).map fun w => w.2.gbudget.toNat).foldl (· + ·) 0 ≤ s.freeRows core q)

/-- Where a half resumes: each wave's former and new slot, and the half there. -/
structure Return where
  former : Half
  slots : List (Nat × Nat)
  half : Half

/-- The base a half takes: its former one where it is free. -/
def State.returnBase (s : State) (core base size : Nat) : Option Nat :=
  let free (x : Nat × Nat) : Bool := x.2 == 0 || decide (base + size ≤ x.1) || decide (x.1 + x.2 ≤ base)
  if base + size ≤ s.scratchSize core ∧ (s.allocations core).all free then some base else s.freeRange core size

/-- A half of a stopped block fits: in its former slots, or on a hosted core placed again by R36 in WAVEID order (R220, R434). Its
block slot is then that of the first wave placed; of a half without waves, the lowest that no block has (R39). -/
def State.returnHalf (s : State) (b : SavedBlock) (h : Half) : Option Return :=
  let ws := b.wavesOn h.core
  if !s.coreUsable h.core then none
  else
    match s.returnBase h.core h.base b.block.scratch with
    | none => none
    | some base =>
      if !s.shares h.core || b.fitsHosted then
        if s.formerSlots b h then some { former := h, slots := ws.map fun w => (w.1, w.1), half := { h with base := base } } else none
      else
        let taken := s.blockSlots h.core
        let free := ((List.range 16).map fun i => h.core * 32 + i).find? fun k => !taken.contains k
        (seatWaves taken (ws.map fun w => w.2.gbudget.toNat) (s.quadsOf h.core)).map fun l =>
          { former := h, slots := (ws.map fun w => w.1).zip l,
            half := { h with base := base, blockSlot := (l.head?.getD (free.getD 0)) % 32 } }

/-- A block can never return: its core is bound to no hardware, or it has to be placed again on a hosted core and R36 refuses it
there with the core empty (R434). -/
def State.cannotReturn (s : State) (b : SavedBlock) : Bool :=
  b.block.halves.any fun h =>
    (s.hostOf (h.core / 2)).isNone
      || (s.shares h.core && !b.fitsHosted
        && (decide (s.scratchSize h.core < b.block.scratch)
          || (seatWaves [] ((b.wavesOn h.core).map fun w => w.2.gbudget.toNat)
              ((List.range 2).map fun q => (q, (List.range 8).map fun i => h.core * 32 + q * 8 + i, 512))).isNone))

/-- Log entries after a pre-emption: each translates again, and asks the partner card again unless its requests are still under
way (R213, R220). -/
def State.reopenAll (s : State) (log : List LogEntry) : List LogEntry :=
  log.map fun e => e.reopened s.groupOpen

/-- A wave as it resumes, read from the save area of its former slot. -/
def State.returnWave (s : State) (old new : Nat) (w : Wave) : State :=
  let who := s.whoOf new w
  let w := { w with age := s.fresh, waited := 0, yielded := none }
  let s := s.bump
  if w.wait = .ending then s.seat new w
  else if w.handler.isSome then
    s.seat new { w with wait := .none, owed := [], answers := [], heldTrap := none, log := s.reopenAll w.log,
                           handler := w.handler.map fun h => { h with log := s.reopenAll h.log } }
  else
    let kept : SavedWave := { depth := w.depth, kinds := w.kinds, step := w.wsStep, priv := w.wsPriv, log := w.log }
    match s.restoreWave new w kept (s.saveArea who.pav who.ctx old) with
    | none => s.terminate who.pav who.ctx 0 w.pc
    | some (.error c) => (s.seat new { w with wait := .none }).takeTrap new w { cause := c, lanes := 0, addr := 0 } w.pc w.pc 0
    | some (.ok w') => s.seat new w'

/-- Where a former slot is now. -/
def newSlot (l : List Return) (k : Nat) : Nat :=
  ((l.flatMap fun r => r.slots).find? fun x => x.1 == k).map (fun x => x.2) |>.getD k

/-- The walker a saved one returns to: its own where it is free, else the lowest free one; none where there is none. -/
def State.returnWalker (s : State) (k : Nat) : Option Nat :=
  let c := s.core (k / 64)
  let free (n : Nat) : Bool := (Assoc.find c.walkers n).isNone
  if k % 64 < s.walkerSlots (k / 64) ∧ free (k % 64) then some k
  else ((List.range (s.walkerSlots (k / 64))).find? free).map fun n => k / 64 * 64 + n

/-- Put saved walkers back; none where one finds no walker. -/
def State.putWalkers (s : State) : List (Nat × Walker) → Option State
  | [] => some s
  | x :: t =>
    match s.returnWalker x.1 with
    | none => none
    | some k => (s.setWalker k x.2).putWalkers t

/-- Put saved FIFO entries back, ahead of later ones; none where a FIFO has no room. -/
def State.putFifo (s : State) (l : List (Nat × LaunchEntry)) : Option State :=
  let cores := distinct (l.map fun x => x.1)
  let mine (c : Nat) : List LaunchEntry := (l.filter fun x => x.1 == c).map fun x => x.2
  if cores.any fun c => decide (256 < (s.core c).fifo.length + (mine c).length) then none
  else some (cores.foldl (fun (t : State) c => t.setCore c { t.core c with fifo := mine c ++ (t.core c).fifo }) s)

/-- A channel or the scoreboard of a core holds more than it can (R287, R295). -/
def CoreState.crowded (c : CoreState) : Bool := (c.chans.toList.any fun l => decide (16 < l.length)) || decide (16 < c.rangesHeld)

/-- Put saved transfers back, the byte ranges where the allocation is now; none where a channel or the scoreboard has no room. -/
def State.putTransfers (s : State) (l : List Return) (ts : List (Nat × Nat × Transfer)) : Option State :=
  let moved (t : Transfer) : Transfer :=
    match l.find? fun r => r.half.core == t.core with
    | some r => { t with range := t.range.map fun x => (x.1 + r.half.base - r.former.base, x.2 + r.half.base - r.former.base) }
    | none => t
  let cores := distinct (ts.map fun x => x.1)
  let s := (List.range 4).foldl (fun (s : State) ch =>
    cores.foldl (fun (s : State) c =>
      let mine := (ts.filter fun x => x.1 == c && x.2.1 == ch).map fun x => moved x.2.2
      let k := s.core c
      s.setCore c { k with chans := k.chans.setIfInBounds ch (mine ++ (k.chans[ch]?.getD [])) }) s) s
  if cores.any fun c => (s.core c).crowded then none else some s

/-- A half's allocation as it was saved. -/
def State.putScratch (s : State) (core base size : Nat) (img : List Host.Cell × List Nat) : State :=
  let lo := scratchKey core base
  let s := s.clearScratch core base size
  { s with mem := s.mem.writeCells (img.1.map fun (c : Host.Cell) => (lo + c.1, c.2)),
           poisoned := distinct (s.poisoned ++ img.2.map fun o => (lo + o) / 64) }

/-- A stopped block returns at the places given: its allocation and the engines' work first, then its waves. -/
def State.returnBlock (s : State) (pav : Nat) (b : SavedBlock) (l : List Return) : Option State :=
  let p := s.pav pav
  let k := p.savedWork
  let mine (x : Nat) : Bool := x == b.key
  let units := k.units.filter fun u => u.2.owner == some b.key
  let kept : SavedWork := { k with
    walkers := dropIf (fun x => mine x.2.block) k.walkers, fifo := dropIf (fun x => mine x.2.block) k.fifo,
    transfers := dropIf (fun x => mine x.2.2.block) k.transfers, units := dropIf (fun u => u.2.owner == some b.key) k.units }
  let block := { b.block with halves := l.map Return.half, alive := b.block.alive.map (newSlot l),
                              ctxBase := BitVec.ofNat 64 (s.ctxField b.block.pav b.block.ctx 104 8) }
  if units.any fun u => (s.unit u.1).owner.isSome then none
  else
    let s := s.setPav pav { p with savedWork := kept, savedBlocks := dropIf (fun x => x.key == b.key) p.savedBlocks }
    let s := (s.latchCtx b.block.pav b.block.ctx).setBlock b.key block
    let s := (l.zip b.scratch).foldl (fun (t : State) x =>
      ((t.putScratch x.1.half.core x.1.half.base b.block.scratch x.2).flushL1 x.1.half.core).setCore x.1.half.core
        (t.loadCtx (t.core x.1.half.core) b.block.pav b.block.ctx)) s
    let s := units.foldl (fun (t : State) u => t.setUnit u.1 { u.2 with redx := (t.unit u.1).redx }) s
    (s.putTransfers l (k.transfers.filter fun x => mine x.2.2.block)).bind fun s =>
    (s.putFifo (k.fifo.filter fun x => mine x.2.block)).bind fun s =>
    (s.putWalkers (k.walkers.filter fun x => mine x.2.block)).map fun s =>
      b.waves.foldl (fun (t : State) w => if (t.block b.key).isSome then t.returnWave w.1 (newSlot l w.1) w.2 else t) s

/-- Every half of a block has a place. -/
def State.returnPlaces (s : State) (b : SavedBlock) : Option (List Return) :=
  b.block.halves.foldr (fun h acc =>
    match s.returnHalf b h, acc with
    | some r, some l => some (r :: l)
    | _, _ => none) (some [])

/-- End a context that cannot return to a core, with a record of TYPE 11 (R434). -/
def State.endStranded (s : State) (pav core ctx : Nat) : State :=
  (s.addError (dieOf core) 13 11 core ctx 0).terminate pav ctx 0 0

/-- A stopped block tries to return: it does, it waits for room, or its context is terminated with a record of TYPE 11. -/
def State.tryReturn (s : State) (pav : Nat) (b : SavedBlock) : Option State :=
  if s.cannotReturn b then
    let core := (b.block.halves.head?.map Half.core).getD 0
    some (s.endStranded pav core b.block.ctx)
  else (s.returnPlaces b).bind fun l => s.returnBlock pav b l

/-- Blocks that wait to return, those of the highest class first: pavilion and block. -/
def State.returning (s : State) : List (Nat × SavedBlock) :=
  sortBy (fun x => x.2.cls) (s.pavs.flatMap fun p =>
    (p.2.savedBlocks.filter fun b => !s.paused p.1 b.block.ctx).map fun b => (p.1, b))

/-- Cores and contexts of saved queries whose core no hardware serves any more. -/
def State.strandedQueries (s : State) (k : SavedWork) : List (Nat × Nat) :=
  let unbound (core : Nat) : Bool := (s.hostOf (core / 2)).isNone
  (k.walkers.filterMap fun x => x.2.shipped.bind fun h => if unbound (x.1 / 64) then some (x.1 / 64, h.ctx) else none)
    ++ k.fifo.filterMap fun x => x.2.handoff.bind fun m => if unbound x.1 then some (x.1, m.ctx) else none

/-- Work without a block returns as far as there is room: queries that the partner card shipped, and triangles, which commit before
any new one. -/
def State.returnLoose (s : State) (pav : Nat) : State :=
  let named (ctx : Nat) : Bool := !s.paused pav ctx
  let lost := (s.strandedQueries (s.pav pav).savedWork).filter fun x => named x.2
  let s := lost.foldl (fun (t : State) x => t.endStranded pav x.1 x.2) s
  let k := (s.pav pav).savedWork
  let back := k.triangles.filter fun x => named x.2.ctx
  let keep (s : State) (f : SavedWork → SavedWork) : State := s.setPav pav { s.pav pav with savedWork := f (s.pav pav).savedWork }
  let s := keep s fun k => { k with triangles := dropIf (fun x => named x.2.ctx) k.triangles }
  let s := [0, 1].foldl (fun (t : State) d =>
    let u := t.cover d
    t.setCover d { u with binned := (back.filter fun x => x.1 == d).map (fun x => x.2) ++ u.binned }) s
  let entry (x : Nat × LaunchEntry) : Bool := match x.2.handoff with | some m => named m.ctx | none => false
  let query (x : Nat × Walker) : Bool := match x.2.shipped with | some h => named h.ctx | none => false
  let s := match s.putFifo (k.fifo.filter entry) with
    | none => s
    | some t => keep t fun k => { k with fifo := dropIf entry k.fifo }
  match s.putWalkers (k.walkers.filter query) with
  | none => s
  | some t => keep t fun k => { k with walkers := dropIf query k.walkers }

/-- Restart a pavilion's saved work: its blocks return as the distributors place work (R410, R447). -/
def State.resumePav (s : State) (pav : Nat) : State :=
  (s.setPav pav { s.pav pav with saved := false, savedCtxs := [] }).returnLoose pav

/-- PREEMPT_RESUME (R447): RESUME restarts the saved work and clears SAVED; ignored while BUSY is 1. -/
def execPreemptResume (pav : Nat) (s : State) : Host.Outcome State Fault Refusal :=
  if !s.pf.locked ∨ 16 ≤ pav ∨ (s.pav pav).busy then .next s else .next (s.resumePav pav)

/-! ### Mapping out a pair (R433, R434) -/

/-- The logical pairs that a physical pair hosts. -/
def State.hostedBy (s : State) (pair : Nat) : List Nat := (List.range 112).filter fun q => s.hostOf q == some pair

/-- The lowest-numbered working pair of a die that hosts no logical pair but its own. -/
def State.findHost (s : State) (die : Nat) : Option Nat :=
  ((List.range 56).map fun i => die * 56 + i).find? fun p =>
    !s.pairFailed p && (s.hostedBy p).all fun q => q == p

/-- Bind one logical pair of a failed one to a host, or leave it unbound. -/
def State.rebind (s : State) (pair : Nat) : State :=
  { s with hosts := Assoc.set s.hosts pair (s.findHost (dieOf (2 * pair))) }

/-- Record whether a logical pair has a host: TYPE 10, or TYPE 11 where none was available. -/
def State.recordHost (s : State) (pair : Nat) : State :=
  s.addError (dieOf (2 * pair)) 13 (if (s.hostOf pair).isSome then 10 else 11) (2 * pair) 0xFFFF 0

/-- Resume what the mapping-out itself has stopped in a pavilion; what a request of its driver holds stays. -/
def State.resumeMoved (s : State) (pav : Nat) : State :=
  let left := (s.pav pav).savedCtxs.erase 0xFFFF
  (s.setPav pav { s.pav pav with savedCtxs := left, saved := !left.isEmpty }).returnLoose pav

/-- Pavilions with work on the logical cores of some pairs: blocks that have waves or engine work left, and queries of the partner
card (R433). -/
def State.pavsOn (s : State) (pairs : List Nat) : List Nat :=
  let here (core : Nat) : Bool := pairs.contains (core / 2)
  let blocks := (s.blocks.filter fun b => (!b.2.alive.isEmpty || s.blockBusy b.1) && b.2.halves.any fun h => here h.core).map
    fun b => b.2.pav
  let queries := (s.cores.filter fun c => here c.1).flatMap fun c =>
    (c.2.walkers.filterMap fun x => x.2.shipped.map Shipped.pav) ++ c.2.fifo.filterMap fun e => e.handoff.map HandoffMsg.pav
  distinct (blocks ++ queries)

/-- The pairs that come to host the logical pairs of a failed one. -/
def State.newHosts (s : State) (pairs : List Nat) : List Nat :=
  pairs.filterMap (pairs.foldl State.rebind s).hostOf

/-- One step of mapping out a failed pair: the pavilions with work on it, or on a pair that comes to host its cores and so loses half
its slots (R434, assumption 44), are pre-empted, which terminates a context whose state cannot be saved; once none of that work
is left there, its logical pairs get hosts, the pavilions resume, and each logical pair is recorded. -/
def State.mapOutStep (s : State) (pair : Nat) : State :=
  let pairs := s.hostedBy pair
  let s := { s with pf := { s.pf with mapout := BitVec.ofNat 7 pair, mapoutBusy := true } }
  let live := if s.failed.contains pair then [] else s.pavsOn (pairs ++ s.newHosts pairs)
  let fresh := live.filter fun p => !(s.pav p).busy
  if !fresh.isEmpty then
    let s := fresh.foldl (fun (t : State) p => t.startPreempt p 0xFFFF) s
    { s with pf := { s.pf with mapoutPavs := distinct (s.pf.mapoutPavs ++ fresh) } }
  else if !live.isEmpty then s
  else
    let s := if s.failed.contains pair then s
      else pairs.foldl State.rebind { s with
        failed := distinct (s.failed ++ [pair]), loaded := Assoc.erase s.loaded pair,
        pf := { s.pf with mapoutMoved := pairs, marked := s.pf.marked.erase pair } }
    let s := (s.pf.mapoutPavs.filter fun p => !(s.pav p).busy).foldl State.resumeMoved
      { s with pf := { s.pf with mapoutPavs := s.pf.mapoutPavs.filter fun p => (s.pav p).busy } }
    if !s.pf.mapoutPavs.isEmpty then s
    else
      let s := s.pf.mapoutMoved.foldl State.recordHost s
      { s with pf := { s.pf with mapoutBusy := false, mapoutMoved := [] } }

/-- MAPOUT (R433): the driver fails a pair; ignored while BUSY is 1 or where the number names no pair. -/
def execMapout (value : Word) (s : State) : Host.Outcome State Fault Refusal :=
  let pair := value.toNat % 128
  if s.pf.mapoutBusy ∨ 112 ≤ pair ∨ s.failed.contains pair then .next s else .next (s.mapOutStep pair)

/-- PAIR_MAP_OUT (R433): a pair that MAPOUT, its self-test or R428 has failed goes on being mapped out. -/
def execPairMapOut (pair : Nat) (s : State) : Host.Outcome State Fault Refusal :=
  if 112 ≤ pair ∨ (s.pf.mapoutBusy ∧ s.pf.mapout.toNat ≠ pair) ∨ (!s.pf.mapoutBusy ∧ s.failed.contains pair) then .next s
  else .next (s.mapOutStep pair)

end Sys2Proof.Machine
end

