-- ==== Sys2Proof/Machine/Place.lean ====
section
/-! DEFINITION. What a distributor does at a placement opportunity (R401, R404, R410): it returns a stopped block, starts a
record or places a block; with the admission of persistent grids (R406) and stealing (R405). -/

namespace Sys2Proof.Machine

/-! ### Placement opportunities (R401, R410) -/

/-- A block of a class that waits to return to a core of the die. -/
def State.returningTo (s : State) (die cls : Nat) : List (Nat × SavedBlock) :=
  s.returning.filter fun x => x.2.cls == cls && x.2.block.halves.any fun h => dieOf h.core == die

/-- A stopped block may take room of a die: no persistent grid of a higher class waits for it, and RT reservations leave it
(R401, R406, R410, assumption 69); one that can never return is ended. -/
def State.mayReturn (s : State) (die : Nat) (b : SavedBlock) : Bool :=
  s.cannotReturn b || (!(decide (b.cls ≠ 0) && s.classHeld (b.cls - 1)) && match Assoc.find s.grids b.block.grid with
    | some g => s.withinReserve die b.waves.length g
    | none => true)

/-- The record at the head of a source of a die and class, where it may start now (R401, R402, R408): 0 is the resume list,
1 + pav*256 + q a queue. -/
def State.headOf (s : State) (die cls source : Nat) : Option Head :=
  let h := if source = 0 then s.resumeHead die cls else s.queueHead die ((source - 1) / 256) ((source - 1) % 256)
  h.filter fun h => s.predecessorAllows h || (recExtents h.record).isNone

/-- The sources of a class that a die visits, ascending: its resume list, the enabled record queues that it is the home of, and
the sources of the grids it places blocks of. -/
def State.sourcesFor (s : State) (die cls : Nat) : List Nat :=
  let queues := (s.enabledQueues.filter fun q => descClass q.2.2 == cls && s.queueHome q.1 q.2.1 == die).map fun q =>
    1 + q.1 * 256 + q.2.1
  sortBy id (distinct (0 :: queues ++ (s.candidates die cls).map fun x => x.2.1.source))

/-- What a distributor does next. -/
inductive Chance where
  /-- A stopped block returns, or its context is ended. -/
  | back (pav : Nat) (b : SavedBlock)
  | start (h : Head)
  | place (gid linear : Nat) (g : Grid) (p : Placement)

/-- What a source offers: the next block of its grid where it can be placed, else its head. -/
def State.sourceChance (s : State) (die cls source : Nat) : Option Chance :=
  match (s.candidates die cls).find? fun x => x.2.1.source == source with
  | some x =>
    if s.withinReserve die x.2.1.waves x.2.1 then (s.findPlace die x.2.1).map fun p => .place x.1 x.2.2 x.2.1 p else none
  | none => (s.headOf die cls source).map .start

/-- What a class offers: a stopped block that can return, and nothing new while one waits (R410); else, unless a persistent grid
of the class or a higher one waits for room, what the round robin finds. -/
def State.classChance (s : State) (die cls : Nat) : Option Chance :=
  match s.returningTo die cls with
  | [] =>
    if s.classHeld cls then none
    else (visitOrder (((s.dist die).visit[cls]?).getD (0, 16)) (s.sourcesFor die cls)).findSome? (s.sourceChance die cls)
  | l => (l.find? fun x => s.mayReturn die x.2 && (s.tryReturn x.1 x.2).isSome).map fun x => .back x.1 x.2

/-- The four classes in strict order. -/
def State.chance (s : State) (die : Nat) : Option Chance := (List.range 4).findSome? (s.classChance die)

/-- A distributor acts. -/
def State.take (s : State) (die : Nat) : Chance → State
  | .back pav b => (s.tryReturn pav b).getD s
  | .start h => s.tryHead h
  | .place gid linear g p =>
    match s.descPoison g.pav g.ctx with
    | some line => (s.addError die 11 7 die g.ctx line).terminate g.pav g.ctx Cause.poison.code 0
    | none => (s.setDist die ((s.dist die).visited g.cls g.source (s.visitWeight g.source))).placeBlock die gid linear g p

/-- Queries of the partner card and triangles that pre-emptions hold return once they have room. -/
def State.returnAllLoose (s : State) : State :=
  (s.pavs.filter fun p => nonEmpty p.2.savedWork.walkers || nonEmpty p.2.savedWork.fifo || nonEmpty p.2.savedWork.triangles).foldl
    (fun (t : State) p => t.returnLoose p.1) s

/-- BLOCK_PLACEMENT (R401, R404, R36): one placement opportunity of a ready distributor. -/
def execBlockPlacement (die : Nat) (s : State) : Host.Outcome State Fault Refusal :=
  if !s.pf.ready.getLsbD (11 + die) then .next s
  else
    let s := s.returnAllLoose
    match s.chance die with
    | some c => .next (s.take die c)
    | none => .next s

/-- A record stands at a source. -/
def sourceHolds : RecordSource → Head → Bool
  | .queue pav q, h => h.pav == pav && h.queue == some q
  | .resume cls, h => h.queue.isNone && h.cls == cls

/-- RECORD_START (R402, R403): the record at the head of a source starts, where it is what the distributor does next. -/
def execRecordStart (die : Nat) (src : RecordSource) (s : State) : Host.Outcome State Fault Refusal :=
  match s.chance die with
  | some (.start h) => if sourceHolds src h then .next (s.tryHead h) else .next s
  | _ => .next s

/-- GRID_TRIGGERED (R408): the predecessor is triggered or complete, and the grid record that waits for it starts. -/
def execGridTriggered (pav q : Nat) (s : State) : Host.Outcome State Fault Refusal :=
  match s.chance (s.queueHome pav q) with
  | some (.start h) =>
    if sourceHolds (.queue pav q) h ∧ recAfter h.record ≠ 0 then .next (s.tryHead h) else .next s
  | _ => .next s

/-! ### Persistent grids (R406) -/

/-- PERSISTENT_GRID_ADMIT (R406, R410): every block can be admitted at once, and all of them are placed; grids of higher classes and
stopped blocks of its own class or a higher one go first. -/
def execPersistentGridAdmit (grid : Nat) (s : State) : Host.Outcome State Fault Refusal :=
  match Assoc.find s.grids grid with
  | none => .next s
  | some g =>
    let ahead := s.grids.any (fun x => x.2.persistent && !x.2.admitted && decide (x.2.cls < g.cls) && !s.paused x.2.pav x.2.ctx)
      || s.returning.any fun x => decide (x.2.cls ≤ g.cls)
    if !g.persistent ∨ g.admitted ∨ !(g.received.all fun r => r) ∨ s.paused g.pav g.ctx ∨ ahead then .next s
    else
      match s.placeGrid grid g with
      | some s' => .next s'
      | none => .next s

/-! ### Stealing (R405) -/

/-- Work of a class or a higher one that a die could place, other than a grid. -/
def State.otherWork (s : State) (die cls gid : Nat) : Bool :=
  (List.range (cls + 1)).any fun c =>
    (s.returningTo die c).any (fun x => s.mayReturn die x.2 && (s.tryReturn x.1 x.2).isSome)
      || (s.sourcesFor die c).any fun src => match s.sourceChance die c src with
        | some (.place n _ _ _) => n != gid
        | some _ => true
        | none => false

/-- A die may send a steal message for a grid: both distributors are ready and have the grid. -/
def State.maySteal (s : State) (die gid : Nat) (g : Grid) : Bool :=
  decide (die < 2) && g.isGrid && !g.persistent && (g.received.all fun r => r) && s.pf.ready.getLsbD 11 && s.pf.ready.getLsbD 12
    && ((g.unplaced[die]?).getD []).isEmpty && !(g.stealDone[die]?).getD true && decide (s.dieFree die ≠ 0)
    && !s.otherWork die g.cls gid && !(s.grids.any fun x => (x.2.stealOut[die]?).getD false) && !s.paused g.pav g.ctx

/-- STEAL_MESSAGE (R405): a die with room asks, and the other hands over the highest-indexed half of its unplaced blocks. -/
def execStealMessage (die grid : Nat) (s : State) : Host.Outcome State Fault Refusal :=
  match Assoc.find s.grids grid with
  | none => .next s
  | some g =>
    let other := 1 - die
    let u := (g.unplaced[other]?).getD []
    let keep := u.length - u.length / 2
    let d := s.dist die
    if s.maySteal die grid g then
      .next ((s.setGrid grid { g with unplaced := g.unplaced.setIfInBounds other (u.take keep),
                                      stealOut := g.stealOut.setIfInBounds die true }).setDist die
        { (s.dist die) with replies := d.replies ++ [(grid, u.drop keep)] })
    else .next s

/-- STEAL_REPLY (R405): the blocks arrive to be placed; none ends stealing for the grid by that die. -/
def execStealReply (die : Nat) (s : State) : Host.Outcome State Fault Refusal :=
  let d := s.dist die
  match d.replies with
  | [] => .next s
  | (grid, l) :: rest =>
    let s := s.setDist die { d with replies := rest }
    match Assoc.find s.grids grid with
    | none => .next s
    | some g =>
      .next (s.setGrid grid { g with
        unplaced := g.unplaced.mapIdx fun i u => if i = die then sortBy id (u ++ l) else u,
        stealOut := g.stealOut.setIfInBounds die false,
        stealDone := if l.isEmpty then g.stealDone.setIfInBounds die true else g.stealDone })

end Sys2Proof.Machine
end

