-- ==== Sys2Proof/Machine/Scrub.lean ====
section
/-! DEFINITION. Soft errors wherever SECDED finds them (R428), among them the patrol scrubber's reads. -/

namespace Sys2Proof.Machine

/-- SOURCE, LOC and die of the error record of an engine (R431). -/
def engineSource : EngineId → Nat × Nat × Nat
  | .waves c => (13, c, dieOf c)
  | .matrix p => (13, 2 * p, dieOf (2 * p))
  | .millrace c => (5, c, dieOf c)
  | .copy c => (13, c, dieOf c)
  | .sampler c => (13, c, dieOf c)
  | .coverage d => (12, d, d)

/-- The contexts that have work in an engine, as keys. -/
def State.engineCtxs (s : State) (e : EngineId) : List Nat :=
  let ofBlocks (l : List Nat) : List Nat := l.filterMap fun b => (s.block b).map fun x => ctxKey x.pav x.ctx
  match e with
  | .waves c => ofBlocks ((s.waves.filter fun w => coreOf w.1 == c).map fun w => w.2.block)
  | .matrix p => ofBlocks ((s.unit p).owner.toList ++ (s.unit p).ops.map MxOp.block)
  | .millrace c =>
    (s.core c).walkers.map (fun w => (s.walkerWho (c * 64 + w.1) w.2).ctxKey)
      ++ (s.core c).fifo.filterMap fun e => match e.handoff with
        | some m => some (ctxKey m.pav m.ctx)
        | none => (s.block e.block).map fun x => ctxKey x.pav x.ctx
  | .copy c => ofBlocks ((s.core c).chans.toList.flatMap fun l => l.map Transfer.block)
  | .sampler c => (s.logs.filter fun l => l.core == c).map fun l => ctxKey l.pav l.ctx
  | .coverage d => ((s.cover d).input ++ (s.cover d).binned).map fun t => ctxKey t.pav t.ctx

/-- An engine as after reset. -/
def State.reinitEngine (s : State) : EngineId → State
  | .waves _ => s
  | .matrix p => s.setUnit p {}
  | .millrace c => s.setCore c { s.core c with walkers := [], fifo := [] }
  | .copy c => s.setCore c { s.core c with chans := Vector.replicate 4 [] }
  | .sampler c => { s with filters := dropIf (fun f => f.core == c) s.filters }
  | .coverage d => s.setCover d {}

/-- The logical pair of an engine of a core. -/
def enginePair : EngineId → Option Nat
  | .waves c => some (pairOf c)
  | .matrix p => some p
  | .millrace c => some (pairOf c)
  | .copy c => some (pairOf c)
  | .sampler c => some (pairOf c)
  | .coverage _ => none

/-- Terminate contexts that an uncorrectable error of a unit reaches; an error is no trap and has no cause code. -/
def State.terminateAll (s : State) (l : List Nat) : State :=
  (distinct l).foldl (fun (t : State) k => t.terminate (k / 65536) (k % 65536) 0 0) s

/-- A double-bit error in a unit's control state: every context with work in it is terminated and the unit starts anew; for a
unit of a core the physical pair is marked failed. -/
def State.failEngine (s : State) (e : EngineId) : State :=
  let r := engineSource e
  let s := ((s.addError r.2.2 r.1 2 r.2.1 0xFFFF 0).terminateAll (s.engineCtxs e)).reinitEngine e
  match (enginePair e).bind s.hostOf with
  | some h => { s with pf := { s.pf with marked := distinct (s.pf.marked ++ [h]) } }
  | none => s

/-- The contexts that have work in a distributor. -/
def State.distCtxs (s : State) (die : Nat) : List Nat :=
  (s.grids.filterMap fun g => if ((g.2.unplaced[die]?).getD []).isEmpty then none else some (ctxKey g.2.pav g.2.ctx))
    ++ (s.dist die).resume.toList.flatMap (fun l => l.map fun e => ctxKey e.pav e.ctx)
    ++ (s.enabledQueues.filter fun q => s.queueHome q.1 q.2.1 == die && s.queueCount q.1 q.2.1 != 0).map fun q =>
        ctxKey q.1 (s.queueCtx q.1 q.2.1)

/-- The contexts that have work in a die's slices: stores and replica stores under way to them, loads whose data they owe, and
contributions to collectives. -/
def State.sliceCtxs (s : State) (die : Nat) : List Nat :=
  (s.stores.filter fun p => p.cells.any fun c => lineDie (c.1 / 64) == die).map PendingStore.ctx
    ++ (s.waves.filter fun w => w.2.owed.any fun o => o.lines.any fun l => lineDie l == die).map (fun w => (s.whoOf w.1 w.2).ctxKey)
    ++ (s.colls.filter fun m => lineDie ((m.frame + m.offset) / 64) == die).map fun m => ctxKey m.pav m.ctx

/-- A double-bit error in an accumulator element poisons it. -/
def State.poisonElement (s : State) (pair : Nat) (visible : Bool) (slot element : Nat) : State :=
  let u := s.unit pair
  let hit (b : Bank) : Bank := b.mapIdx fun i t => if i = slot then { t with poison := sortBy id (distinct (element :: t.poison)) } else t
  s.setUnit pair (if visible then { u with visible := hit u.visible } else { u with working := hit u.working })

/-- A double-bit error in a row poisons it; a register that is no row has none. -/
def State.poisonRow (s : State) (k : Nat) (r : Reg) : State :=
  match s.wave k with
  | none => s
  | some w => if (rd w.regs r).isRow then s.setWave k { w with badRows := if w.badRows.contains r then w.badRows else w.badRows ++ [r] } else s

/-- A line comes over a hop: its records, and the poison of a line that fails four times, which lies in place where this card holds
the line (R427, assumption 71). -/
def State.hopArrival (s : State) (line : Nat) (x : Sends) : State :=
  let n := hopMismatches (s.lineCheck line) x.values
  let s := s.hopRecords x.hop line n
  if 4 ≤ n ∧ s.paKind (line * 64) ≠ .partner then s.poison line else s

/-- PATROL_SCRUB (R428): SECDED tests a place on a read, and a period of 0 keeps the scrubber from reading GDDR7 (assumption 60). A
hop tests the check value of a line (R427). -/
def execPatrolScrub (place : EccPlace) (ecc : EccResult) (s : State) : Host.Outcome State Fault Refusal :=
  let plain (die source loc ctx : Nat) (double : State → State) : Host.Outcome State Fault Refusal :=
    match ecc with
    | .single => .next (s.addError die source 1 loc ctx 0)
    | .double => .next (double (s.addError die source 2 loc ctx 0))
    | _ => .next s
  match place with
  | .memory line => if s.pf.scrubPeriod = 0 ∨ 0x2000000000 ≤ line * 64 then .next s else .next (s.eccLine line ecc)
  | .l2 line => .next (s.eccFrom 6 (Config.channelOf line).toNat line ecc)
  | .l1 core line => .next (s.eccFrom 1 core line ecc)
  | .instrCache core line => .next (s.eccFrom 13 core line ecc)
  | .nodeCache core line => .next (s.eccFrom 5 core line ecc)
  | .hop line x => .next (s.hopArrival line x)
  | .row k r =>
    match s.wave k with
    | none => .next s
    | some w =>
      let who := s.whoOf k w
      plain (dieOf who.core) 0 who.core who.ctx fun s => s.poisonRow k r
  | .scratch core offset => plain (dieOf core) 2 core 0xFFFF fun s => s.poison (scratchKey core offset / 64)
  | .accumulator pair visible slot element =>
    plain (dieOf (2 * pair)) 3 (2 * pair) 0xFFFF fun s => s.poisonElement pair visible slot element
  | .wave k =>
    match s.wave k with
    | none => .next s
    | some w =>
      let who := s.whoOf k w
      plain (dieOf who.core) 0 who.core who.ctx fun s => s.terminate who.pav who.ctx 0 w.pc
  | .engine e =>
    let r := engineSource e
    match ecc with
    | .single => .next (s.addError r.2.2 r.1 1 r.2.1 0xFFFF 0)
    | .double => .next (s.failEngine e)
    | _ => .next s
  | .distributor die => plain die 11 die 0xFFFF fun s => (s.terminateAll (s.distCtxs die)).setDist die {}
  | .slices die => plain die 6 die 0xFFFF fun s => s.terminateAll (s.sliceCtxs die)

end Sys2Proof.Machine
end

