-- ==== Sys2Proof/Machine/Replay.lean ====
section
/-! DEFINITION. The replay of logged instructions (R213) and the delivery of traps (R206 to R208). -/

namespace Sys2Proof.Machine

/-! ### Replay (R213) -/

/-- Run the meaning of an instruction that logs (R210); none for any other. -/
def replayOf (i : Instr) : Option (State → Host.Outcome State Fault Refusal) :=
  match i with
  | .ld d a imm => some (execLd d a imm)
  | .ldx d a b => some (execLdx d a b)
  | .st d a imm => some (execSt d a imm)
  | .stx d a b => some (execStx d a b)
  | .ldz d a b => some (execLdz d a b)
  | .stz d a b => some (execStz d a b)
  | .aadd d a b => some (execAadd d a b)
  | .amin d a b => some (execAmin d a b)
  | .amax d a b => some (execAmax d a b)
  | .aand d a b => some (execAand d a b)
  | .aor d a b => some (execAor d a b)
  | .axor d a b => some (execAxor d a b)
  | .axchg d a b => some (execAxchg d a b)
  | .acas d a b => some (execAcas d a b)
  | .spawn a b => some (execSpawn a b)
  | .enq d a b => some (execEnq d a b)
  | .publish a => some (execPublish a)
  | .cpygo d ch => some (execCpygo d ch)
  | .rgather d a b => some (execRgather d a b)
  | .rscat d a b => some (execRscat d a b)
  | .rscatadd d a b => some (execRscatadd d a b)
  | .coll d a b => some (execColl d a b)
  | .mma slot k a b => some (execMma slot k a b)
  | .mmap slot k a b => some (execMmap slot k a b)
  | .acdrain a slot => some (execAcdrain a slot)
  | .cbload a cb => some (execCbload a cb)
  | .taload a mode => some (execTaload a mode)
  | .taeval slot a b => some (execTaeval slot a b)
  | .leafgather d a b => some (execLeafgather d a b)
  | .sgnproj d a b => some (execSgnproj d a b)
  | .tlaunch d a b => some (execTlaunch d a b)
  | .ldlod d a b => some (execLdlod d a b)
  | .sample d a b => some (execSample d a b)
  | .primemit a => some (execPrimemit a)
  | .visrd d a => some (execVisrd d a)
  | _ => none

/-- The wave as the entry's instruction sees it: the logged `WM`, lanes, shadow sets and sources; p1 holds the lanes and guards it.
What it writes goes to the registers as they now stand, beside the wave's other entries `log`. No later instruction has
written its destinations (R211). -/
def LogEntry.view (e : LogEntry) (w : Wave) (log : List LogEntry) : Wave :=
  let bad := dropIf (fun r => e.sources.any fun x => x.reg == r && x.retained.isSome) w.badRows
  let regs := e.sources.foldl (fun (R : Regs) x => R.setIfInBounds x.reg.toNat x.val) w.regs
  { w with regs := regs, exec := e.exec, preds := w.preds.setIfInBounds 1 e.lanes, shadow := e.shadow,
           wm := (e.wm &&& ~~~0xF#32) ||| 1#32, pc := e.pc, log := [e], owed := [], wait := .none, answers := e.answers,
           retired := false, watchHit := none, heldTrap := none, badRows := bad, replay := some { regs := w.regs, log := log } }

/-- Replace entry `n` of a wave's log. -/
def Wave.setEntry (w : Wave) (n : Nat) (e : LogEntry) : Wave := { w with log := w.log.set n e }

/-- Entry `n` has replayed and frees: one more instruction after the older entries has retired (R213), and what waited for an
entry goes on. -/
def Wave.replayed (w done : Wave) (n : Nat) : Wave :=
  let home := done.replay.getD { regs := w.regs, log := w.log.eraseIdx n }
  { w with regs := home.regs, log := home.log.mapIdx fun i e => if i < n then { e with past := e.past + 1 } else e,
           owed := w.owed ++ done.owed, openBatch := done.openBatch,
           wait := if (w.wait = .log ∨ w.wait = .row) ∧ w.heldTrap.isNone then .none else w.wait, watchHit := none }

/-- The entry has replayed; its after-trap is taken (R213, R218, R437). -/
def State.endReplay (s : State) (k : Nat) (w : Wave) (n : Nat) (e : LogEntry) (done : Wave) : State :=
  let w' := w.replayed done n
  let who := s.whoOf k w
  let s := s.count who.core who.pav who.ctx 1 1
  match done.watchHit with
  | some a => s.takeTrap k w' { cause := .watchpoint, lanes := e.lanes, addr := a } e.pc w'.pc 0
  | none =>
    if e.step then s.takeTrap k w' { cause := .step, lanes := e.lanes, addr := 0 } e.pc w'.pc 0
    else s.setWave k w'

/-- What a replay left behind: it retired, it failed for good, it meets another fault, it asks the partner card, or it waits
and replays later. -/
def State.afterReplay (s : State) (k : Nat) (w : Wave) (n : Nat) (e : LogEntry) : State :=
  match s.wave k with
  | none => s
  | some x =>
    let keep (e : LogEntry) : State := s.setWave k (w.setEntry n e)
    if x.retired then s.endReplay k w n e x
    else match x.heldTrap with
      | some t => keep { e with state := .unresolvable t.cause, failLanes := t.lanes, faddr := t.addr, line := t.line, answers := [] }
      | none =>
        match x.log[1]? with
        | some f => keep { e with state := .pending, fltid := f.fltid, faddr := f.faddr, failLanes := f.failLanes }
        | none =>
          match x.wait with
          | .fault id => keep { e with state := .pending, fltid := some id }
          | .logRoom id => keep { e with state := .pending, fltid := some id }
          | .fabric g => keep { e with fabric := some g }
          | _ => keep e

/-- LOG_REPLAY (R213): the entry's fault is resolved, and its instruction replays from the entry. An instruction that held the
issue point executes again whole (R210). A core that is halted keeps its entries (R221). -/
def execLogReplay (wave : Nat) (entry : Nat) (s : State) : Host.Outcome State Fault Refusal :=
  match s.wave wave with
  | none => .next s
  | some w =>
    match w.log[entry]? with
    | none => .next s
    | some e =>
      if e.state ≠ .resolved ∨ e.fabric.isSome ∨ w.wait = .saved ∨ w.wait = .halted ∨ (s.core (coreOf wave)).halted then .next s
      else if e.holds then .next (s.setWave wave { w with log := w.log.eraseIdx entry, wait := .none })
      else
        match replayOf e.instr with
        | none => .next (s.setWave wave { w with log := w.log.eraseIdx entry })
        | some run =>
          let v := e.view w (w.log.eraseIdx entry)
          if v.struck e.instr then
            .next (s.setWave wave (w.setEntry entry { e with state := .unresolvable .poison, failLanes := 0, faddr := 0 }))
          else match run { s.setWave wave v with cur := wave } with
          | .next s' => .next { s'.afterReplay wave w entry e with cur := s.cur }
          | r => r

/-! ### Delivery (R206 to R208) -/

/-- The oldest unresolvable entry of a wave. -/
def Wave.failed (w : Wave) : Option (LogEntry × Cause) :=
  w.log.findSome? fun e => match e.state with
    | .unresolvable c => some (e, c)
    | _ => none

/-- A trap of the wave can be delivered: an entry has failed, or a trap is held; a held trap waits until every entry has
replayed or failed (R207). -/
def Wave.trapDue (w : Wave) : Bool :=
  match w.heldTrap with
  | none => w.failed.isSome
  | some _ => w.log.all fun e => match e.state with | .unresolvable _ => true | _ => false

/-- TRAP_DELIVER (R206 to R208): an instruction in flight completes first (R206), and nothing is delivered on a halted core
(R221). -/
def execTrapDeliver (wave : Nat) (s : State) : Host.Outcome State Fault Refusal :=
  match s.wave wave with
  | none => .next s
  | some w =>
    if !w.trapDue ∨ w.wait = .saved ∨ w.wait = .halted ∨ (s.core (coreOf wave)).halted ∨ (w.wait ≠ .log ∧ s.inFlight w) then .next s
    else
      match w.failed, w.heldTrap with
      | some (e, c), _ =>
        .next (s.takeTrap wave w { cause := c, lanes := e.failLanes, addr := e.faddr, line := e.line } e.pc w.pc e.past)
      | none, some t => .next (s.takeTrap wave w t w.pc w.pc 0)
      | none, none => .next s

end Sys2Proof.Machine
end

