-- ==== Sys2Proof/Machine/Host.lean ====
section
/-! DEFINITION. The host's side: reset and bring-up (R451 to R455), attestation (R456), the UALink (R457), power and clocks
(R458), and register writes (R17, R435, R445 to R447). -/

namespace Sys2Proof.Machine

/-! ### Reset and bring-up (R451, R452, R455) -/

/-- The firmware that the boot ROM accepts: slot A, else slot B (R455). -/
def PhysFn.bootImage (f : PhysFn) : Option (List Byte) :=
  if Config.firmwareVerifies f.flashA then some f.flashA
  else if Config.firmwareVerifies f.flashB then some f.flashB
  else none

/-- A mailbox that has been written holds the new image of slot A, which takes effect at the next reset (R455, assumption 75). -/
def PhysFn.flashed (f : PhysFn) : PhysFn :=
  if f.fwmbox.isEmpty then f else { f with flashA := (List.range 4096).map fun i => (Assoc.find f.fwmbox i).getD 0 }

/-- RESET (R451, R455): every register takes its reset value and the boot ROM verifies the firmware. The flash and host memory
are not the device's to clear; the model's own counters go on (assumption 4). -/
def execReset (s : State) : Host.Outcome State Fault Refusal :=
  let flash := s.pf.flashed
  let image := flash.bootImage
  let pf : PhysFn := { flashA := flash.flashA, flashB := flash.flashB, firmware := image.getD [],
                       readyErr := if image.isSome then 0 else 2 }
  .next { State.reset with
    pf := pf, mem := s.mem.filter (fun c => decide (0x4000000000000 ≤ c.1) && decide (c.1 < 0x8000000000000)),
    out := s.out, agenda := s.agenda, steps := s.steps, fresh := s.fresh }

/-- What a function needs before it is ready (the table of R451). -/
def readyNeeds : Nat → List Nat
  | 0 => []
  | 1 => [0]
  | 2 => [1]
  | 3 => [1]
  | 4 => [1]
  | 5 => [2, 3]
  | 6 => [4]
  | 7 => [1]
  | 8 => [1]
  | 9 => [2, 3, 4, 7, 8]
  | 10 => [2, 3, 4, 7, 8]
  | 11 => [9, 10]
  | 12 => [9, 10]
  | 13 => [2, 3]
  | 14 => [2, 3]
  | 15 => [1]
  | _ => [1]

/-- A set of one bit of READY or READYERR. -/
def setBit64 (x : BitVec 64) (n : Nat) : BitVec 64 := x ||| (1#64 <<< n)

/-- Every failed pair of a die is mapped out (R433, R451). -/
def State.pairsMapped (s : State) (die : Nat) : Bool :=
  s.pf.marked.all (fun p => dieOf (2 * p) != die) && !(s.pf.mapoutBusy && dieOf (2 * s.pf.mapout.toNat) == die)

/-- A function whose needs are ready may become so: the UALink while it is enabled and trained (R457), a die's cores once its failed
pairs are mapped out. -/
def State.startUpDone (s : State) (bit : Nat) : Bool :=
  if bit = 15 then s.pf.ualup else if bit = 9 ∨ bit = 10 then s.pairsMapped (bit - 9) else true

/-- FUNCTION_READY (R451): a function starts up, or fails to. -/
def execFunctionReady (bit : Nat) (ok : Bool) (s : State) : Host.Outcome State Fault Refusal :=
  let f := s.pf
  if 16 < bit ∨ f.ready.getLsbD bit ∨ f.readyErr.getLsbD bit ∨ !((readyNeeds bit).all fun n => f.ready.getLsbD n)
      ∨ (bit = 15 ∧ !f.ualen) ∨ (ok ∧ !s.startUpDone bit) then .next s
  else if ok then .next { s with pf := { f with ready := setBit64 f.ready bit } }
  else .next { s with pf := { f with readyErr := setBit64 f.readyErr bit } }

/-- The registers of the physical function operate: its registers and the firmware are ready (R452, R455). -/
def State.regsUp (s : State) : Bool := s.pf.ready.getLsbD 0 && s.pf.ready.getLsbD 1

/-- FEATURE_ACCEPT (R453): the first write that holds no bit outside DEVFEAT locks DRVFEAT. -/
def execFeatureAccept (value : BitVec 256) (s : State) : Host.Outcome State Fault Refusal :=
  if !s.regsUp ∨ s.pf.locked then .next s
  else if value &&& ~~~s.pf.devfeat ≠ 0 then .next { s with pf := { s.pf with featErr := true } }
  else .next { s with pf := { s.pf with drvfeat := value, locked := true } }

/-! ### Attestation (R456) -/

/-- The latched DEBUGGABLE bit of every VALID context of a pavilion, as its digest takes them: the context's number in two bytes,
then the bit in one (assumption 75). -/
def State.debuggableBytes (s : State) (pav : Nat) : List Byte :=
  (s.ctxs.filter fun c => c.1 / 65536 == pav && s.ctxValid pav (c.1 % 65536)).flatMap fun c =>
    leBytes (c.1 % 65536) 2 ++ [if c.2.debuggable then 1 else 0]

/-- The digests of a MEASUREMENTS response and its two signatures over one transcript (R456). -/
def State.measurements (s : State) (nonce : BitVec 256) : SpdmResponse :=
  let firmware := sha384 s.pf.firmware
  let devfeat := sha384 (leBytes s.pf.devfeat.toNat 32)
  let drvfeat := sha384 (leBytes s.pf.drvfeat.toNat 32)
  let debuggable := (List.range 16).map fun pav => sha384 (s.debuggableBytes pav)
  let transcript := Config.spdmTranscript ([firmware, devfeat, drvfeat] ++ debuggable) nonce
  { firmware := firmware, devfeat := devfeat, drvfeat := drvfeat, debuggable := debuggable,
    opaqueData := Config.slhDsaSignature transcript, signature := Config.rsaSignature transcript }

/-- SPDM_MEASUREMENTS (R456). -/
def execSpdmMeasurements (nonce : BitVec 256) (s : State) : Host.Outcome State Fault Refusal :=
  if s.pf.ready.getLsbD 16 then .next (s.emit (.spdm (s.measurements nonce))) else .next s

/-! ### UALink (R457) -/

/-- UALINK_ENABLE (R453, R457): ignored while DRVFEAT bit 0 is not accepted. -/
def execUalinkEnable (v : Bool) (s : State) : Host.Outcome State Fault Refusal :=
  if s.regsUp ∧ s.accepted 0 then .next { s with pf := { s.pf with ualen := v } } else .next s

/-- UALINK_UP (R451, R457): the partner is trained, unless the function has failed its start-up. -/
def execUalinkUp (s : State) : Host.Outcome State Fault Refusal :=
  if s.pf.ualen ∧ s.pf.ready.getLsbD 1 ∧ !s.pf.readyErr.getLsbD 15 then
    .next { s with pf := { s.pf with ualup := true, ready := setBit64 s.pf.ready 15 } }
  else .next s

/-- UALINK_LOSS (R454, R457). -/
def execUalinkLoss (s : State) : Host.Outcome State Fault Refusal :=
  if s.pf.ualup then
    .next ({ s with pf := { s.pf with ualup := false, loss := true } }.pfEvent 6 0xFFFF 0 s.clock.toNat)
  else .next s

/-! ### Power and clocks (R458) -/

/-- The contexts of a pavilion's queues that are enabled or hold entries. -/
def State.queuedKeys (s : State) (pav : Nat) : List Nat :=
  ((List.range 256).filter fun q => s.queueEnabled pav q || s.queueCount pav q != 0).map fun q => ctxKey pav (s.queueCtx pav q)

/-- Every context that is latched, holds work or has a queue: pavilion and number. -/
def State.allCtxs (s : State) : List (Nat × Nat) :=
  (distinct (s.ctxs.map (fun c => c.1) ++ s.workKeys ++ s.pavs.flatMap fun p => s.queuedKeys p.1)).map fun k =>
    (k / 65536, k % 65536)

/-- THERMAL_TRIP (R458): issue stops, every context is terminated, and only a reset recovers the device. -/
def execThermalTrip (s : State) : Host.Outcome State Fault Refusal :=
  .next ({ s.allCtxs.foldl (fun (t : State) (c : Nat × Nat) => t.terminate c.1 c.2 0 0) s with thermal := true }.emit .cxlFatal)

/-- THROTTLE_STEP (R458): one millisecond's average power in 0.1 W, and the clock's step of 25 MHz. -/
def execThrottleStep (power : BitVec 16) (s : State) : Host.Outcome State Fault Refusal :=
  let mhz := if 6900 < power.toNat then Nat.max 1000 (s.mhz - 25) else if power.toNat < 6900 then Nat.min 1500 (s.mhz + 25) else s.mhz
  .next { s with pf := { s.pf with power := power }, mhz := mhz }

/-! ### Register writes (R17, R445 to R447, R452) -/

/-- Put the 8 bytes of a write into a table of bytes. -/
def putBytes (t : Assoc Byte) (off : Nat) (value : DWord) (mask : Byte) : Assoc Byte :=
  (List.range 8).foldl (fun (t : Assoc Byte) i => Assoc.set t (off + i) (value.extractLsb' (8 * i) 8 &&& mask)) t

/-- Bits [hi:lo] of a value, in place. -/
def fieldMask (value : DWord) (lo n : Nat) : DWord := value &&& BitVec.ofNat 64 ((2 ^ n - 1) * 2 ^ lo)

/-- A write to a debug module (R435, R439, R440). -/
def State.writeDebug (s : State) (core off : Nat) (v : DWord) : Host.Outcome State Fault Refusal :=
  let on (f : Debug → Debug) : Host.Outcome State Fault Refusal := .next (s.onDebug core f)
  let slot := (v.extractLsb' 4 5).toNat
  let k := off % 0x100 / 16
  if off = 0x000 then
    if v.getLsbD 16 then execDebugAttach core (v.extractLsb' 0 16) s
    else
      match execDebugDetach core s with
      | .next s => .next (s.onDebug core fun d => { d with ctx := (v.extractLsb' 0 16).toNat })
      | r => r
  else if off = 0x008 then (if v.getLsbD 0 then execDebugHalt core s else execDebugRelease core s)
  else if off = 0x010 then
    match (v.extractLsb' 0 4).toNat with
    | 1 => execDebugStep core slot s
    | 2 => execDebugSave core slot s
    | 3 => execDebugRestore core slot s
    | 4 => execDebugSkipBreakpoint core slot s
    | 5 => execDebugResume core slot s
    | _ => .next s
  else if off = 0x018 then on fun d => { d with buf := fieldMask v 6 46 }
  else if 0x100 ≤ off ∧ off < 0x180 ∧ off % 16 = 0 then
    on fun d => { d with breaks := d.breaks.setIfInBounds k (fieldMask v 0 1 ||| fieldMask v 2 50) }
  else if 0x180 ≤ off ∧ off < 0x1C0 ∧ off % 16 = 0 then
    on fun d => { d with watchAddr := d.watchAddr.setIfInBounds (k - 8) (fieldMask v 0 52) }
  else if 0x180 ≤ off ∧ off < 0x1C0 then
    on fun d => { d with watchCtl := d.watchCtl.setIfInBounds (k - 8) (fieldMask v 0 3 ||| fieldMask v 4 4) }
  else if off = 0x218 then on fun d => { d with gsValid := d.gsValid && !v.getLsbD 0 }
  else if off = 0x300 then on fun d => { d with traceBase := fieldMask v 12 40 }
  else if off = 0x308 then on fun d => { d with traceCtl := fieldMask v 0 6 }
  else if off = 0x318 then on fun d => { d with traceCons := loWord v }
  else if 0x400 ≤ off ∧ off < 0x440 ∧ off % 16 = 0 then on fun d => { d with evcnt := d.evcnt.setIfInBounds k v }
  else if 0x400 ≤ off ∧ off < 0x440 then on fun d => { d with evsel := d.evsel.setIfInBounds k v }
  else .next s

/-- A register that is laid out as FBRING: the ring header's address in [51:6] (R378). -/
def ringField (v : DWord) : DWord := fieldMask v 6 46

/-- A write of 8 bytes of a queue descriptor: while ENABLE is 1, only one that clears it acts, and it acts whole (R397). -/
def State.writeDesc (s : State) (pav q piece : Nat) (v : DWord) : Host.Outcome State Fault Refusal :=
  let d := lineSet (s.desc pav q) (8 * piece) 8 v.toNat
  if s.queueEnabled pav q then (if descEnabled d then .next s else .next ((s.disableQueue pav q).setDesc pav q d))
  else if descEnabled d then execQueueEnable pav q d s
  else .next (s.setDesc pav q d)

/-- A write to a pavilion's control block (R447): ignored until DRVFEAT is locked. -/
def State.writePav (s : State) (pav off : Nat) (v : DWord) : Host.Outcome State Fault Refusal :=
  let p := s.pav pav
  let on (q : Pavilion) : Host.Outcome State Fault Refusal := .next (s.setPav pav q)
  if !s.pf.locked ∨ 16 ≤ pav then .next s
  else if off < 0x4000 then s.writeDesc pav (off / 64) (off % 64 / 8) v
  else if off = 0x8000 then on { p with fbring := ringField v }
  else if off = 0x8008 then on { p with fltring := ringField v }
  else if off = 0x8010 then
    if v.extractLsb' 33 31 ≠ 0 then .next s
    else if v.getLsbD 32 then execFaultUnresolvable pav (loWord v) s else execFaultRetry pav (loWord v) s
  else if off = 0x8018 then on { p with sdAddr := fieldMask v 0 52 }
  else if off = 0x8020 then on { p with sdSize := fieldMask v 0 52 }
  else if off = 0x8028 then
    if v.getLsbD 0 then execShootdownGo pav (v.extractLsb' 2 16) s else on { p with sdCtx := v.extractLsb' 2 16 }
  else if off = 0x8030 then on { p with evring := ringField v }
  else if off = 0x8038 then on { p with ctxtab := fieldMask v 8 44 }
  else if off = 0x8040 then on { p with ctxcount := v.extractLsb' 0 16 }
  else if off = 0x8048 then
    if v.getLsbD 16 then execPreemptGo pav (v.extractLsb' 0 16) s
    else if v.getLsbD 19 then
      if p.busy then .next s else execPreemptResume pav (s.setPav pav { p with pctx := v.extractLsb' 0 16 })
    else on { p with pctx := v.extractLsb' 0 16 }
  else .next s

/-- A write to the physical function's own registers (R446). -/
def State.writePf (s : State) (off : Nat) (v : DWord) : Host.Outcome State Fault Refusal :=
  let f := s.pf
  let on (g : PhysFn) : Host.Outcome State Fault Refusal := .next { s with pf := g }
  if 0x40 ≤ off ∧ off < 0x60 then
    let n := 8 * (off - 0x40)
    let hole : BitVec 256 := ~~~((0xFFFFFFFFFFFFFFFF#256) <<< n)
    execFeatureAccept ((f.drvfeat &&& hole) ||| (v.setWidth 256 <<< n)) s
  else if off = 0x60 then on { f with featErr := f.featErr && !v.getLsbD 1 }
  else if 0x100 ≤ off ∧ off < 0x180 then on { f with vfmap := putBytes f.vfmap (off - 0x100) v 0x8F }
  else if off = 0x200 then execMapout (loWord v) s
  else if off = 0x208 then on { f with scrubPeriod := v.extractLsb' 0 8 }
  else if off = 0x210 then (if s.accepted 3 then on { f with bvctl := v.extractLsb' 0 6 } else .next s)
  else if off = 0x218 then on { f with bvring := ringField v }
  else if off = 0x220 then (if (v.extractLsb' 0 13).toNat ≤ 4096 then on { f with impcount := v.extractLsb' 0 13 } else .next s)
  else if off = 0x228 then on { f with ingValid := f.ingValid && !v.getLsbD 0 }
  else if off = 0x238 then on { f with pfevring := ringField v }
  else if off = 0x240 then
    match execUalinkEnable (v.getLsbD 0) s with
    | .next s => .next { s with pf := { s.pf with loss := s.pf.loss && !v.getLsbD 2 } }
    | r => r
  else if off = 0x250 then on { f with drallow := v.extractLsb' 0 16 }
  else if 0x1000 ≤ off ∧ off < 0x2000 then
    if off % 32 = 0 ∧ v.getLsbD 0 then execErrRecordFree ((off - 0x1000) / 0x800) ((off - 0x1000) % 0x800 / 32) s else .next s
  else if off = 0x2000 ∨ off = 0x2008 then
    let die := (off - 0x2000) / 8
    let r := (s.errstat[die]?).getD 0
    if v.getLsbD 0 then .next { s with errstat := s.errstat.setIfInBounds die (r &&& ~~~1#64) } else .next s
  else if 0x20000 ≤ off ∧ off < 0x40000 then on { f with imports := putBytes f.imports (off - 0x20000) v 0xFF }
  else .next s

/-- The READY bits that the function of a register needs (R452): READY and READYERR show what is ready, the firmware mailbox
operates without verified firmware (R455), an error bank and a die's debug modules with their own bits. -/
def State.regReady (s : State) (off : Nat) : Bool :=
  if off < 0x10 then true
  else if 0x40000 ≤ off ∧ off < 0x41000 then s.pf.ready.getLsbD 0
  else if 0x1000 ≤ off ∧ off < 0x2000 then s.regsUp && s.pf.ready.getLsbD (7 + (off - 0x1000) / 0x800)
  else if off = 0x2000 ∨ off = 0x2008 then s.regsUp && s.pf.ready.getLsbD (7 + (off - 0x2000) / 8)
  else if 0x100000 ≤ off ∧ off < 0x100000 + 224 * 0x1000 then
    s.regsUp && s.pf.ready.getLsbD (9 + dieOf ((off - 0x100000) / 0x1000))
  else s.regsUp

/-- The pavilion that a VF's BAR0 shows (R445). -/
def State.vfPav (s : State) (n : Nat) : Option Nat :=
  let e := (Assoc.find s.pf.vfmap n).getD 0
  if n < 128 ∧ e.getLsbD 7 then some (e.extractLsb' 0 4).toNat else none

/-- REGISTER_WRITE (R17, R445 to R447, R452): a 64-bit write at an offset of the physical function's BAR0, or of a VF's. -/
def execRegisterWrite (vf : Option Nat) (off : Nat) (value : DWord) (s : State) : Host.Outcome State Fault Refusal :=
  match vf with
  | some n =>
    match s.vfPav n with
    | some p => if off % 8 ≠ 0 ∨ 0x10000 ≤ off ∨ !s.regsUp then .next s else s.writePav p off value
    | none => .next s
  | none =>
    if off % 8 ≠ 0 ∨ !s.regReady off then .next s
    else if 0x40000 ≤ off ∧ off < 0x41000 then
      .next { s with pf := { s.pf with fwmbox := putBytes s.pf.fwmbox (off - 0x40000) value 0xFF } }
    else if 0x100000 ≤ off ∧ off < 0x100000 + 224 * 0x1000 then
      s.writeDebug ((off - 0x100000) / 0x1000) (off % 0x1000) value
    else if 0x200000 ≤ off ∧ off < 0x300000 then s.writePav ((off - 0x200000) / 0x10000) (off % 0x10000) value
    else s.writePf off value

end Sys2Proof.Machine
end

