-- ==== Sys2Proof/Machine/Int.lean ====
section
/-! DEFINITION. Integer arithmetic and logic (R100 to R105) and 64-bit address arithmetic (R106 to R108). -/

namespace Sys2Proof.Machine

/-! ### Shared forms -/

/-- A two-register integer instruction: `f` on the two values, `sh` on the two shapes. -/
def intBin (i : Instr) (sat : Bool) (sh : Shape → Shape → Shape) (d a b : Reg) (f : Int → Int → Int) (s : State) :
    Host.Outcome State Fault Refusal :=
  issueOwn i s fun w => w.intOp d [d, a, b] sat (sh (w.shapeOf a) (w.shapeOf b)) fun t n =>
    f (w.intLane t a n) (w.intLane t b n)

/-- A one-register integer instruction; `f` is given the type. -/
def intUn (i : Instr) (sat : Bool) (sh : Shape → Shape) (d a : Reg) (f : ETy → Int → Int) (s : State) :
    Host.Outcome State Fault Refusal :=
  issueOwn i s fun w => w.intOp d [d, a] sat (sh (w.shapeOf a)) fun t n => f t (w.intLane t a n)

/-- U stays U, anything else is G (R105, last row). -/
def Shape.flat (x : Shape) : Shape := x.plain .u

/-- Bitwise instructions act on the w-bit patterns (R100); `x` and `y` are integers of the type. -/
def bitwise (f : DWord → DWord → DWord) (x y : Int) : Int := (f (BitVec.ofInt 64 x) (BitVec.ofInt 64 y)).toInt

/-- The count of `SHL` and `SHR` at lane `i` (R101). -/
def Wave.shiftCount (w : Wave) (t : ETy) (b : Reg) (i : Nat) : Nat :=
  (lane w.regs b i).toNat % (if t.is64 then 64 else 32)

/-- `SHL` or `SHR`: the count's register stays of kind reg. -/
def shiftReg (i : Instr) (sat : Bool) (d a b : Reg) (sh : Shape → Shape → Shape) (f : Int → Nat → Int) (s : State) :
    Host.Outcome State Fault Refusal :=
  issueOwn i s fun w => w.intOp d [d, a] sat (sh (w.shapeOf a) (shape32 w.regs b)) fun t n =>
    f (w.intLane t a n) (w.shiftCount t b n)

/-- `SHLI` or `SHRI`: under a type of at most 32 bits, bit 5 of the count must be zero (R101). -/
def shiftImm (i : Instr) (sat : Bool) (d a : Reg) (c : BitVec 6) (sh : Shape → Shape) (f : Int → Nat → Int) (s : State) :
    Host.Outcome State Fault Refusal :=
  issueOwn i s fun w =>
    if c.getLsbD 5 ∧ (wmET w.wm).width ≤ 32 then trapE .illegalOperand
    else w.intOp d [d, a] sat (sh (w.shapeOf a)) fun t n => f (w.intLane t a n) c.toNat

/-- a × 2^c. -/
def shiftUp (x : Int) (c : Nat) : Int := x * 2 ^ c
/-- floor(a / 2^c). -/
def shiftDown (x : Int) (c : Nat) : Int := x / 2 ^ c

/-- Leading zero bits of the low `n` bits of `x`. -/
def leadingZeros (x : Nat) : Nat → Nat
  | 0 => 0
  | n + 1 => if x / 2 ^ n % 2 = 1 then 0 else leadingZeros x n + 1

/-- One bits among the low `n` bits of `x`. -/
def oneBits (x : Nat) : Nat → Nat
  | 0 => 0
  | n + 1 => oneBits x n + x / 2 ^ n % 2

/-! ### R100 to R103 -/

/-- ADD (R100). -/
def execAdd (d a b : Reg) (s : State) : Host.Outcome State Fault Refusal :=
  intBin (.add d a b) true Shape.sum d a b (fun x y => x + y) s
/-- SUB (R100). -/
def execSub (d a b : Reg) (s : State) : Host.Outcome State Fault Refusal :=
  intBin (.sub d a b) true Shape.sum d a b (fun x y => x - y) s
/-- MUL (R100). -/
def execMul (d a b : Reg) (s : State) : Host.Outcome State Fault Refusal :=
  intBin (.mul d a b) true Shape.scaled d a b (fun x y => x * y) s
/-- MULH (R102). -/
def execMulh (d a b : Reg) (s : State) : Host.Outcome State Fault Refusal :=
  issueOwn (.mulh d a b) s fun w => w.intOp d [d, a, b] false ((w.shapeOf a).plain (w.shapeOf b)) fun t n =>
    w.intLane t a n * w.intLane t b n / 2 ^ t.width
/-- The shape of `MAD`: A when the product is A with U and vd is U or A (R105). -/
def madShape (product addend : Shape) : Shape :=
  match product with
  | .u => addend.flat
  | .a => if addend = .g then .g else .a
  | .g => .g

/-- MAD (R103, R105). -/
def execMad (d a b : Reg) (s : State) : Host.Outcome State Fault Refusal :=
  issueOwn (.mad d a b) s fun w =>
    w.intOp d [d, a, b] true (madShape ((w.shapeOf a).scaled (w.shapeOf b)) (w.shapeOf d)) fun t n =>
      w.intLane t d n + w.intLane t a n * w.intLane t b n
/-- MIN (R100). -/
def execMin (d a b : Reg) (s : State) : Host.Outcome State Fault Refusal :=
  intBin (.min d a b) false Shape.plain d a b (fun x y => if y < x then y else x) s
/-- MAX (R100). -/
def execMax (d a b : Reg) (s : State) : Host.Outcome State Fault Refusal :=
  intBin (.max d a b) false Shape.plain d a b (fun x y => if x < y then y else x) s
/-- ABS (R102). -/
def execAbs (d a : Reg) (s : State) : Host.Outcome State Fault Refusal :=
  intUn (.abs d a) true Shape.flat d a (fun _ x => if x < 0 then -x else x) s
/-- NEG (R102). -/
def execNeg (d a : Reg) (s : State) : Host.Outcome State Fault Refusal :=
  intUn (.neg d a) true id d a (fun _ x => -x) s
/-- AND (R100). -/
def execAnd (d a b : Reg) (s : State) : Host.Outcome State Fault Refusal :=
  intBin (.and d a b) false Shape.plain d a b (bitwise fun x y => x &&& y) s
/-- OR (R100). -/
def execOr (d a b : Reg) (s : State) : Host.Outcome State Fault Refusal :=
  intBin (.or d a b) false Shape.plain d a b (bitwise fun x y => x ||| y) s
/-- XOR (R100). -/
def execXor (d a b : Reg) (s : State) : Host.Outcome State Fault Refusal :=
  intBin (.xor d a b) false Shape.plain d a b (bitwise fun x y => x ^^^ y) s
/-- NOT (R100): the complement of the w-bit pattern is -1 - x. -/
def execNot (d a : Reg) (s : State) : Host.Outcome State Fault Refusal :=
  intUn (.not d a) false id d a (fun _ x => -1 - x) s
/-- SHL (R101). -/
def execShl (d a b : Reg) (s : State) : Host.Outcome State Fault Refusal :=
  shiftReg (.shl d a b) true d a b Shape.shifted shiftUp s
/-- SHR (R101). -/
def execShr (d a b : Reg) (s : State) : Host.Outcome State Fault Refusal :=
  shiftReg (.shr d a b) false d a b Shape.plain shiftDown s
/-- CLZ (R100). -/
def execClz (d a : Reg) (s : State) : Host.Outcome State Fault Refusal :=
  intUn (.clz d a) false Shape.flat d a (fun t x => leadingZeros (t.pattern (BitVec.ofInt 64 x)) t.width) s
/-- POPC (R100). -/
def execPopc (d a : Reg) (s : State) : Host.Outcome State Fault Refusal :=
  intUn (.popc d a) false Shape.flat d a (fun t x => oneBits (t.pattern (BitVec.ofInt 64 x)) t.width) s
/-- ADDI (R100). -/
def execAddi (d a : Reg) (imm : BitVec 8) (s : State) : Host.Outcome State Fault Refusal :=
  intUn (.addi d a imm) true id d a (fun _ x => x + imm.toInt) s
/-- SHLI (R101). -/
def execShli (d a : Reg) (c : BitVec 6) (s : State) : Host.Outcome State Fault Refusal :=
  shiftImm (.shli d a c) true d a c id shiftUp s
/-- SHRI (R101). -/
def execShri (d a : Reg) (c : BitVec 6) (s : State) : Host.Outcome State Fault Refusal :=
  shiftImm (.shri d a c) false d a c Shape.flat shiftDown s
/-- ANDI (R100). -/
def execAndi (d a : Reg) (imm : BitVec 8) (s : State) : Host.Outcome State Fault Refusal :=
  intUn (.andi d a imm) false Shape.flat d a (fun _ x => bitwise (fun p q => p &&& q) x imm.toNat) s
/-- MULI (R100). -/
def execMuli (d a : Reg) (imm : BitVec 8) (s : State) : Host.Outcome State Fault Refusal :=
  intUn (.muli d a imm) true id d a (fun _ x => x * imm.toInt) s

/-! ### Bit fields (R104) -/

/-- Position and length of a bit field. -/
def bitField (x : Word) : Nat × Nat := ((x.extractLsb' 0 5).toNat, (x.extractLsb' 8 5).toNat)

/-- A `BFE` or `BFI`: INT32 only. -/
def bitFieldOp (i : Instr) (d a b : Reg) (srcs : List Reg) (f : Wave → Nat → Word) (s : State) :
    Host.Outcome State Fault Refusal :=
  issueOwn i s fun w =>
    match accept setInt32 (wmET w.wm) [d, a, b] with
    | .error e => .error e
    | .ok _ => w.put32 (activeMask w) d (f w) (allU (srcs.map fun r => shape32 w.regs r))

/-- The field of `BFE`. -/
def bfeValue (sgn : Bool) (a b : Word) : Word :=
  let pl := bitField b
  let f := (a >>> pl.1).toNat % 2 ^ pl.2
  if sgn ∧ 0 < pl.2 ∧ 2 ^ (pl.2 - 1) ≤ f then BitVec.ofInt 32 ((f : Int) - 2 ^ pl.2) else BitVec.ofNat 32 f

/-- The result of `BFI`. -/
def bfiValue (d a b : Word) : Word :=
  let pl := bitField b
  let m : Word := BitVec.ofNat 32 ((2 ^ pl.2 - 1) * 2 ^ pl.1)
  (d &&& ~~~m) ||| ((a <<< pl.1) &&& m)

/-- BFE (R104). -/
def execBfe (d a b : Reg) (s : State) : Host.Outcome State Fault Refusal :=
  bitFieldOp (.bfe d a b) d a b [a, b]
    (fun w n => bfeValue (wmET w.wm == .s32) (lane w.regs a n) (lane w.regs b n)) s
/-- BFI (R104). -/
def execBfi (d a b : Reg) (s : State) : Host.Outcome State Fault Refusal :=
  bitFieldOp (.bfi d a b) d a b [d, a, b]
    (fun w n => bfiValue (lane w.regs d n) (lane w.regs a n) (lane w.regs b n)) s

/-! ### 64-bit address arithmetic (R106 to R108) -/

/-- `Extend` of R106 by the element type. -/
def extendIndex (t : ETy) (x : Word) : DWord := if t = .s32 then sext64 x else zext64 x

/-- How an index register counts for the shape of an `ADDA` or `LEA` (R107). -/
def indexShape (t : ETy) (R : Regs) (b : Reg) : Shape :=
  match shape32 R b with
  | .a =>
    let first := t.value (zext64 (lane R b 0))
    let e := first + 31 * (lane R b 1 - lane R b 0).toInt
    if t.least ≤ e ∧ e ≤ t.most then .a else .g
  | sh => sh

/-- `ADDA` and the `LEA`s: scale 2^k (R106, R107). -/
def addressSum (i : Instr) (d a : Pair) (b : Reg) (k : Nat) (s : State) : Host.Outcome State Fault Refusal :=
  issueOwn i s fun w =>
    let t := wmET w.wm
    if !setInt32 t then trapE .illegalType
    else w.putPair (activeMask w) d (fun n => pairLane w.regs a n + (extendIndex t (lane w.regs b n)) <<< k)
      ((shape64 w.regs a).sum (indexShape t w.regs b))

/-- ADDA (R106). -/
def execAdda (d a : Pair) (b : Reg) (s : State) : Host.Outcome State Fault Refusal := addressSum (.adda d a b) d a b 0 s
/-- LEA2 (R106). -/
def execLea2 (d a : Pair) (b : Reg) (s : State) : Host.Outcome State Fault Refusal := addressSum (.lea2 d a b) d a b 1 s
/-- LEA4 (R106). -/
def execLea4 (d a : Pair) (b : Reg) (s : State) : Host.Outcome State Fault Refusal := addressSum (.lea4 d a b) d a b 2 s
/-- LEA8 (R106). -/
def execLea8 (d a : Pair) (b : Reg) (s : State) : Host.Outcome State Fault Refusal := addressSum (.lea8 d a b) d a b 3 s

/-- A pair as the exact integer `SUBA` reads (R108). -/
def pairInt (t : ETy) (x : DWord) : Int := if t = .s32 then x.toInt else x.toNat

/-- SUBA (R108). -/
def execSuba (d : Reg) (a b : Pair) (s : State) : Host.Outcome State Fault Refusal :=
  issueOwn (.suba d a b) s fun w =>
    let t := wmET w.wm
    if !setInt32 t then trapE .illegalType
    else w.put32 (activeMask w) d
      (fun n => loWord (t.fit (wmSAT w.wm) (pairInt t (pairLane w.regs a n) - pairInt t (pairLane w.regs b n))))
      (keepA t (wmSAT w.wm) ((shape64 w.regs a).sum (shape64 w.regs b)))

end Sys2Proof.Machine
end

