-- ==== Sys2Proof/Machine/Lane.lean ====
section
/-! DEFINITION. Compares and predicate logic (R109 to R111); shape, lane and cross-lane instructions (R112 to R120). -/

namespace Sys2Proof.Machine

/-! ### Compares (R109) -/

/-- CMPEQ (R109). -/
def execCmpeq (p : Pred) (a b : Reg) (s : State) : Host.Outcome State Fault Refusal :=
  issueOwn (.cmpeq p a b) s fun w => w.compare setNum .eq p a b
/-- CMPNE (R109). -/
def execCmpne (p : Pred) (a b : Reg) (s : State) : Host.Outcome State Fault Refusal :=
  issueOwn (.cmpne p a b) s fun w => w.compare setNum .ne p a b
/-- CMPLT (R109). -/
def execCmplt (p : Pred) (a b : Reg) (s : State) : Host.Outcome State Fault Refusal :=
  issueOwn (.cmplt p a b) s fun w => w.compare setNum .lt p a b
/-- CMPLE (R109). -/
def execCmple (p : Pred) (a b : Reg) (s : State) : Host.Outcome State Fault Refusal :=
  issueOwn (.cmple p a b) s fun w => w.compare setNum .le p a b
/-- CMPGT (R109). -/
def execCmpgt (p : Pred) (a b : Reg) (s : State) : Host.Outcome State Fault Refusal :=
  issueOwn (.cmpgt p a b) s fun w => w.compare setNum .gt p a b
/-- CMPGE (R109). -/
def execCmpge (p : Pred) (a b : Reg) (s : State) : Host.Outcome State Fault Refusal :=
  issueOwn (.cmpge p a b) s fun w => w.compare setNum .ge p a b
/-- CMPUN (R109): FLT only. -/
def execCmpun (p : Pred) (a b : Reg) (s : State) : Host.Outcome State Fault Refusal :=
  issueOwn (.cmpun p a b) s fun w => w.compare setFlt .un p a b

/-! ### Predicate logic (R110, R111) -/

/-- A two-predicate instruction. -/
def predOp (i : Instr) (p a b : Pred) (f : Bool → Bool → Bool) (s : State) : Host.Outcome State Fault Refusal :=
  issueOwn i s fun w =>
    .ok (writePred w (activeMask w) p fun n => f ((predBits w a).getLsbD n) ((predBits w b).getLsbD n))

/-- PAND (R110). -/
def execPand (p a b : Pred) (s : State) : Host.Outcome State Fault Refusal := predOp (.pand p a b) p a b (fun x y => x && y) s
/-- POR (R110). -/
def execPor (p a b : Pred) (s : State) : Host.Outcome State Fault Refusal := predOp (.por p a b) p a b (fun x y => x || y) s
/-- PXOR (R110). -/
def execPxor (p a b : Pred) (s : State) : Host.Outcome State Fault Refusal := predOp (.pxor p a b) p a b (fun x y => x != y) s
/-- PNOT (R110). -/
def execPnot (p a : Pred) (s : State) : Host.Outcome State Fault Refusal := predOp (.pnot p a) p a a (fun x _ => !x) s
/-- PFROM (R110). -/
def execPfrom (p : Pred) (a : Reg) (s : State) : Host.Outcome State Fault Refusal :=
  issueOwn (.pfrom p a) s fun w => .ok (writePred w (activeMask w) p fun n => (lane w.regs a n).getLsbD n)

/-- BALLOT (R111): the guard masks the collection, not the write. -/
def execBallot (d : Reg) (a : Pred) (s : State) : Host.Outcome State Fault Refusal :=
  issueOwn (.ballot d a) s fun w =>
    if activeMask w = 0 then .ok w
    else w.put32 w.exec d (fun _ => predBits w a &&& activeMask w) .u

/-! ### Shape and lane (R113) -/

/-- SHAPE (R113): the tag code, P as 1. -/
def execShape (d a : Reg) (s : State) : Host.Outcome State Fault Refusal :=
  issueOwn (.shape d a) s fun w =>
    w.put32 (activeMask w) d (fun _ => match rd w.regs a with | .u _ => 0 | .g _ => 2 | _ => 1) .u

/-- EXPAND (R113). -/
def execExpand (d a : Reg) (s : State) : Host.Outcome State Fault Refusal :=
  issueOwn (.expand d a) s fun w =>
    let t := wmET w.wm
    match accept setAnyw t [d, a] with
    | .error e => .error e
    | .ok _ => w.put (activeMask w) t d (fun n => t.wrap (t.value (laneT w.regs t a n))) .g

/-- LANEID (R113). -/
def execLaneid (d : Reg) (s : State) : Host.Outcome State Fault Refusal :=
  issueOwn (.laneid d) s fun w => w.put32 (activeMask w) d (fun n => BitVec.ofNat 32 n) .a

/-! ### Cross-lane moves (R114, R115) -/

/-- Lane i of the destination takes the value a of lane `src i`, sources read before any write (R114). -/
def moveLanes (i : Instr) (d a : Reg) (sh : Wave → Shape) (src : Wave → Nat → Nat) (s : State) :
    Host.Outcome State Fault Refusal :=
  issueOwn i s fun w =>
    let t := wmET w.wm
    match accept setAnyw t [d, a] with
    | .error e => .error e
    | .ok _ => w.put (activeMask w) t d (fun n => t.wrap (t.value (laneT w.regs t a (src w n)))) (copyShape t (sh w))

/-- READLANE (R114). -/
def execReadlane (d a b : Reg) (s : State) : Host.Outcome State Fault Refusal :=
  moveLanes (.readlane d a b) d a (fun _ => .u)
    (fun w _ => (lane w.regs b (lowestLane (activeMask w))).toNat % 32) s
/-- SHFL (R114, R120). -/
def execShfl (d a b : Reg) (s : State) : Host.Outcome State Fault Refusal :=
  moveLanes (.shfl d a b) d a (fun w => (w.shapeOf a).plain (shape32 w.regs b))
    (fun w n => (lane w.regs b n).toNat % 32) s
/-- SHFLUP (R115, R120). -/
def execShflup (d a : Reg) (k : BitVec 5) (s : State) : Host.Outcome State Fault Refusal :=
  moveLanes (.shflup d a k) d a (fun w => if k = 0 then w.shapeOf a else (w.shapeOf a).plain .u)
    (fun _ n => if k.toNat ≤ n then n - k.toNat else n) s
/-- SHFLDN (R115, R120). -/
def execShfldn (d a : Reg) (k : BitVec 5) (s : State) : Host.Outcome State Fault Refusal :=
  moveLanes (.shfldn d a k) d a (fun w => if k = 0 then w.shapeOf a else (w.shapeOf a).plain .u)
    (fun _ n => if n + k.toNat ≤ 31 then n + k.toNat else n) s
/-- SHFLX (R115, R120). -/
def execShflx (d a : Reg) (k : BitVec 5) (s : State) : Host.Outcome State Fault Refusal :=
  moveLanes (.shflx d a k) d a (fun w => if k = 0 then w.shapeOf a else (w.shapeOf a).plain .u)
    (fun _ n => n ^^^ k.toNat) s

/-! ### Conflicts, scans, reductions, compaction (R116 to R119) -/

/-- VCONFLICT (R116): the mask is written whole under every type, also one narrower than 32 bits (DESIGN CHOICE, assumption 76). -/
def execVconflict (d a : Reg) (s : State) : Host.Outcome State Fault Refusal :=
  issueOwn (.vconflict d a) s fun w =>
    let t := wmET w.wm
    let act := activeMask w
    let x (n : Nat) : Nat := t.pattern (laneT w.regs t a n)
    match accept setAnyw t [d, a] with
    | .error e => .error e
    | .ok _ => w.put act t d
        (fun n => zext64 (maskOf fun j => decide (j < n) && act.getLsbD j && x j == x n)) .g

/-- One addition of R117: the running value, the next lane's value, and the lane's random bits. -/
def addStep (t : ETy) (wm : Word) (rand : Nat) (x y : DWord) : DWord :=
  if t.isInt then t.fit (wmSAT wm) (t.value x + t.value y)
  else BitVec.ofNat 64 (t.fmt.round (wmRM wm) rand (sumF (wmRM wm) [t.fmt.decode x.toNat, t.fmt.decode y.toNat]))

/-- The first active lane of a fold: its value, a NaN as `Canon` (R117, R118). -/
def firstStep (t : ETy) (y : DWord) : DWord :=
  if t.isInt then t.wrap (t.value y)
  else if t.fmt.decode y.toNat = .nan then BitVec.ofNat 64 t.fmt.canon
  else BitVec.ofNat 64 (t.pattern y)

/-- The running values of a fold over lanes, one for each of `lanes`; `seed` steps before each lane. -/
def foldLanes (step : Nat → DWord → DWord → DWord) (first : DWord → DWord) (val : Nat → DWord) :
    List Nat → Word → Option DWord → List (Nat × DWord)
  | [], _, _ => []
  | n :: rest, seed, acc =>
    let seed := lfsr seed
    let x := match acc with
      | none => first (val n)
      | some x => step (seed.toNat % 65536) x (val n)
    (n, x) :: foldLanes step first val rest seed (some x)

/-- The running sums of the active lanes (R117). -/
def Wave.sums (w : Wave) (t : ETy) (a : Reg) : List (Nat × DWord) :=
  foldLanes (addStep t w.wm) (firstStep t) (laneT w.regs t a) (lanesOf (activeMask w)) w.rseed none

/-- `RSEED` after a scan or a reduction under SR: floats only (R83, R117, R118). -/
def Wave.stepSeed (w : Wave) (t : ETy) : Word :=
  if !t.isInt ∧ isSR w.wm then seedAfter w.rseed (activeMask w) else w.rseed

/-- SCANADD (R117, R120). -/
def execScanadd (d a : Reg) (s : State) : Host.Outcome State Fault Refusal :=
  issueOwn (.scanadd d a) s fun w =>
    let t := wmET w.wm
    match accept setNum t [d, a] with
    | .error e => .error e
    | .ok _ =>
      let l := w.sums t a
      match w.put (activeMask w) t d (fun n => (Assoc.find l n).getD 0)
          (if setInt32 t ∧ !wmSAT w.wm ∧ w.shapeOf a = .u then .a else .g) with
      | .ok w' => .ok { w' with rseed := w.stepSeed t }
      | .error e => .error e

/-- A reduction: the last running value goes to every lane of `EXEC`, and `RSEED` steps as a scan's does, the minimum's and the
maximum's too (R118, assumption 59). -/
def reduce (i : Instr) (d a : Reg) (run : Wave → ETy → List (Nat × DWord)) (s : State) :
    Host.Outcome State Fault Refusal :=
  issueOwn i s fun w =>
    let t := wmET w.wm
    match accept setNum t [d, a] with
    | .error e => .error e
    | .ok _ =>
      match (run w t).getLast? with
      | none => .ok w
      | some x =>
        match w.put w.exec t d (fun _ => x.2) .u with
        | .ok w' => .ok { w' with rseed := w.stepSeed t }
        | .error e => .error e

/-- REDADD (R118). -/
def execRedadd (d a : Reg) (s : State) : Host.Outcome State Fault Refusal :=
  reduce (.redadd d a) d a (fun w t => w.sums t a) s

/-- Running extremes of the active lanes (R118). -/
def Wave.extremes (w : Wave) (larger : Bool) (t : ETy) (a : Reg) : List (Nat × DWord) :=
  foldLanes (fun _ x y => extreme larger t x y) (firstStep t) (laneT w.regs t a) (lanesOf (activeMask w)) w.rseed none

/-- REDMIN (R118). -/
def execRedmin (d a : Reg) (s : State) : Host.Outcome State Fault Refusal :=
  reduce (.redmin d a) d a (fun w t => w.extremes false t a) s
/-- REDMAX (R118). -/
def execRedmax (d a : Reg) (s : State) : Host.Outcome State Fault Refusal :=
  reduce (.redmax d a) d a (fun w t => w.extremes true t a) s

/-- COMPACT (R119, R120). -/
def execCompact (d a : Reg) (s : State) : Host.Outcome State Fault Refusal :=
  issueOwn (.compact d a) s fun w =>
    let t := wmET w.wm
    let src := lanesOf (activeMask w)
    let dst := (lanesOf w.exec).take src.length
    match accept setAnyw t [d, a] with
    | .error e => .error e
    | .ok _ => w.put (maskOf fun n => dst.contains n) t d
        (fun n => t.wrap (t.value (laneT w.regs t a ((Assoc.find (dst.zip src) n).getD n)))) (copyShape t (w.shapeOf a))

end Sys2Proof.Machine
end

