-- ==== Sys2Proof/Machine/Mode.lean ====
section
/-! DEFINITION. Mode and move instructions (R90 to R99) and the special registers they reach (R60). -/

namespace Sys2Proof.Machine

/-! ### Special registers (R60) -/

/-- Access class of a special register (R60). -/
inductive SrAccess where
  | rw | ro | privRw | status | absent
  deriving DecidableEq, Repr

/-- Access column of R60. -/
def srAccess (n : Nat) : SrAccess :=
  match n with
  | 0x000 | 0x003 | 0x004 | 0x00D | 0x00F => .rw
  | 0x001 => .status
  | 0x002 | 0x005 | 0x006 | 0x007 | 0x008 | 0x009 | 0x00A | 0x00B | 0x00C | 0x00E | 0x010 | 0x011 => .ro
  | 0x020 | 0x021 | 0x022 | 0x023 | 0x030 => .ro
  | 0x040 | 0x041 | 0x042 | 0x043 | 0x044 | 0x045 | 0x046 | 0x047 | 0x050 | 0x051 | 0x052 => .privRw
  | 0x060 | 0x061 | 0x062 | 0x063 | 0x070 => .ro
  | _ => .absent

/-- Checks 3 and 4 of R81 on `GETSR` (R60, R93). -/
def getsrCheck (priv : Bool) (n : Nat) (d : Reg) : Run Unit :=
  if srAccess n = .privRw ∧ !priv then trapE .priv
  else if srAccess n = .absent ∨ (sregWide n ∧ d.getLsbD 0) then trapE .illegalOperand
  else .ok ()

/-- Checks 3 and 4 of R81 on `SETSR` (R59, R60, R94). -/
def setsrCheck (priv : Bool) (n : Nat) (a : Reg) : Run Unit :=
  if (srAccess n = .privRw ∨ srAccess n = .status) ∧ !priv then trapE .priv
  else if srAccess n = .absent ∨ srAccess n = .ro ∨ (sregWide n ∧ a.getLsbD 0) then trapE .illegalOperand
  else .ok ()

/-- `CPYDONEc` of the wave's block on its core (R286). -/
def State.cpydone (s : State) (k : Nat) (w : Wave) (ch : Nat) : Word :=
  match (s.block w.block).bind fun b => b.half (coreOf k) with
  | some h => h.done[ch]?.getD 0
  | none => 0

/-- A field of the wave's block; 0 where it has none. -/
def State.ofBlock (s : State) (w : Wave) (f : Block → Nat) : Nat := ((s.block w.block).map f).getD 0

/-- The value of a special register (R60). -/
def State.readSr (s : State) (k : Nat) (w : Wave) (n : Nat) : DWord :=
  let core := coreOf k
  match n with
  | 0x000 => zext64 w.wm
  | 0x001 => zext64 w.ws
  | 0x002 => zext64 w.exec
  | 0x003 => w.lr
  | 0x004 => w.fp
  | 0x005 => BitVec.ofNat 64 w.waveId
  | 0x006 => BitVec.ofNat 64 (s.ofBlock w Block.x)
  | 0x007 => BitVec.ofNat 64 (s.ofBlock w Block.y)
  | 0x008 => BitVec.ofNat 64 (s.ofBlock w Block.z)
  | 0x009 => ((s.block w.block).map Block.gridDim).getD 0
  | 0x00A => BitVec.ofNat 64 w.stage.toNat
  | 0x00B => BitVec.ofNat 64 core
  | 0x00C => BitVec.ofNat 64 (dieOf core)
  | 0x00D => zext64 w.gbudget
  | 0x00E => BitVec.ofNat 64 w.gused
  | 0x00F => zext64 w.rseed
  | 0x010 => s.clock
  | 0x011 => s.time
  | 0x020 => zext64 (s.cpydone k w 0)
  | 0x021 => zext64 (s.cpydone k w 1)
  | 0x022 => zext64 (s.cpydone k w 2)
  | 0x023 => zext64 (s.cpydone k w 3)
  | 0x030 => s.ctxBase w.block (s.whoOf k w).pav (s.whoOf k w).ctx
  | 0x050 => (s.core core).heapBase
  | 0x051 => (s.core core).heapLimit
  | 0x052 => (s.core core).heapOffset
  | 0x060 => BitVec.ofNat 64 w.trapCause.toNat
  | 0x061 => w.trapPc
  | 0x062 => zext64 w.trapLanes
  | 0x063 => w.trapAddr
  | 0x070 => BitVec.ofNat 64 (s.opLogCount core)
  | _ => if 0x040 ≤ n ∧ n ≤ 0x047 then (s.core core).region[n - 0x040]?.getD 0 else 0

/-- Rows of a quad that no wave's budget reserves, of 512 (R36, R55). -/
def State.unreserved (s : State) (k : Nat) : Nat :=
  512 - ((s.waves.filter fun x => x.1 / 8 == k / 8).foldl (fun n x => n + x.2.gbudget.toNat) 0)

/-- `SETSR` of `GBUDGET` (R55). -/
def State.setBudget (s : State) (k : Nat) (w : Wave) (x : Word) : Run Wave :=
  if x.toNat % 8 ≠ 0 ∨ x.toNat < 8 ∨ 256 < x.toNat ∨ x.toNat < w.gused then trapE .illegalOperand
  else if x.toNat ≤ w.gbudget.toNat ∨ x.toNat - w.gbudget.toNat ≤ s.unreserved k then .ok { w with gbudget := x }
  else .ok w

/-- Write `WM` whole (R57, R92). -/
def Wave.setMode (w : Wave) (x : Word) : Run Wave := if wmLegal x then .ok { w with wm := x } else trapE .illegalMode

/-- Write a special register (R94). -/
def State.writeSr (s : State) (k : Nat) (w : Wave) (n : Nat) (x : DWord) : Run (State × Wave) :=
  let c := s.core (coreOf k)
  match n with
  | 0x000 => match w.setMode (loWord x) with
    | .ok w' => .ok (s, w')
    | .error e => .error e
  | 0x001 => .ok (s, { w with wsStep := x.getLsbD 0 })
  | 0x003 => .ok (s, { w with lr := x })
  | 0x004 => .ok (s, { w with fp := x })
  | 0x00D => match s.setBudget k w (loWord x) with
    | .ok w' => .ok (s, w')
    | .error e => .error e
  | 0x00F => .ok (s, { w with rseed := if loWord x = 0 then 1 else loWord x })
  | 0x050 => .ok (s.setCore (coreOf k) { c with heapBase := x }, w)
  | 0x051 => .ok (s.setCore (coreOf k) { c with heapLimit := x }, w)
  | 0x052 => .ok (s.setCore (coreOf k) { c with heapOffset := x }, w)
  | _ =>
    if 0x040 ≤ n ∧ n ≤ 0x047 then .ok (s.setCore (coreOf k) { c with region := c.region.setIfInBounds (n - 0x040) x }, w)
    else .ok (s, w)

/-! ### The instructions -/

/-- NOP (R90). -/
def execNop (s : State) : Host.Outcome State Fault Refusal := issueOwn .nop s fun w => .ok w

/-- MODEL (R91). -/
def execModel (imm : BitVec 16) (s : State) : Host.Outcome State Fault Refusal :=
  issueOwn (.model imm) s fun w =>
    if wmLegal (imm.setWidth 32) then .ok { w with wm := w.wm.extractLsb' 16 16 ++ imm } else trapE .illegalMode

/-- MODEH (R91). -/
def execModeh (imm : BitVec 8) (s : State) : Host.Outcome State Fault Refusal :=
  issueOwn (.modeh imm) s fun w =>
    if wmLegal (imm.setWidth 32 <<< 16) then .ok { w with wm := 0#8 ++ imm ++ w.wm.extractLsb' 0 16 } else trapE .illegalMode

/-- MODEV (R92). -/
def execModev (a : Reg) (s : State) : Host.Outcome State Fault Refusal :=
  issueOwn (.modev a) s fun w => if w.exec = 0 then .ok w else w.setMode (lane w.regs a (lowestLane w.exec))

/-- GETSR (R93). -/
def execGetsr (d : Reg) (sr : BitVec 16) (s : State) : Host.Outcome State Fault Refusal :=
  issue (.getsr d sr) s fun s w =>
    match getsrCheck w.wsPriv sr.toNat d with
    | .error e => .error e
    | .ok _ =>
      let x := s.readSr s.cur w sr.toNat
      match w.put (activeMask w) (if sregWide sr.toNat then .n64 else .n32) d (fun _ => x) .u with
      | .ok w' => .ok (s, w')
      | .error e => .error e

/-- SETSR (R94). -/
def execSetsr (a : Reg) (sr : BitVec 16) (s : State) : Host.Outcome State Fault Refusal :=
  issue (.setsr a sr) s fun s w =>
    match setsrCheck w.wsPriv sr.toNat a with
    | .error e => .error e
    | .ok _ =>
      if activeMask w = 0 then .ok (s, w)
      else s.writeSr s.cur w sr.toNat
        (laneT w.regs (if sregWide sr.toNat then .n64 else .n32) a (lowestLane (activeMask w)))

/-- LDI (R95). -/
def execLdi (d : Reg) (imm : BitVec 16) (s : State) : Host.Outcome State Fault Refusal :=
  issueOwn (.ldi d imm) s fun w => w.put32 (activeMask w) d (fun _ => imm.signExtend 32) .u

/-- LDIH (R95, R99). -/
def execLdih (d : Reg) (imm : BitVec 16) (s : State) : Host.Outcome State Fault Refusal :=
  issueOwn (.ldih d imm) s fun w =>
    w.put32 (activeMask w) d (fun i => imm ++ (lane w.regs d i).extractLsb' 0 16) (allU [shape32 w.regs d])

/-- PCREL (R96): `pc` is the instruction's own address. -/
def execPcrel (d : Pair) (imm : BitVec 16) (s : State) : Host.Outcome State Fault Refusal :=
  issueOwn (.pcrel d imm) s fun w => w.putPair (activeMask w) d (fun _ => w.pc - 4 + imm.signExtend 64 * 4) .u

/-- CBASE (R96). -/
def execCbase (d : Pair) (imm : BitVec 16) (s : State) : Host.Outcome State Fault Refusal :=
  issue (.cbase d imm) s fun s w =>
    let base := s.readSr s.cur w 0x030
    match w.putPair (activeMask w) d (fun _ => base + imm.zeroExtend 64 * 64) .u with
    | .ok w' => .ok (s, w')
    | .error e => .error e

/-- MOV (R97, R99). -/
def execMov (d a : Reg) (s : State) : Host.Outcome State Fault Refusal :=
  issueOwn (.mov d a) s fun w =>
    let t := wmET w.wm
    match accept setAnyw t [d, a] with
    | .error e => .error e
    | .ok _ => w.put (activeMask w) t d (laneT w.regs t a) (w.shapeOf a)

/-- SEL (R98, R99). -/
def execSel (d a b : Reg) (s : State) : Host.Outcome State Fault Refusal :=
  issueOwn (.sel d a b) s fun w =>
    let t := wmET w.wm
    let g := guardMask w
    match accept setAnyw t [d, a, b] with
    | .error e => .error e
    | .ok _ =>
      w.put w.exec t d (fun i => if g.getLsbD i then laneT w.regs t a i else laneT w.regs t b i)
        (if wmGP w.wm = 0 then w.shapeOf (if wmGN w.wm then b else a) else .g)

end Sys2Proof.Machine
end

