-- ==== Sys2Proof/Machine/RegRead.lean ====
section
/-! DEFINITION. What a read of a device register returns (R17, R435, R445 to R447, R452). A read has no effect; write-only fields
and offsets that no rule lists read zero. -/

namespace Sys2Proof.Machine

/-- A Bool as a bit at a place. -/
def flagAt (b : Bool) (k : Nat) : Nat := if b then 2 ^ k else 0

/-- Eight bytes of a table of bytes. -/
def tableRead (t : Assoc Byte) (off : Nat) : Nat := leNat ((List.range 8).map fun i => (Assoc.find t (off + i)).getD 0)

/-- HALTED: the halt is complete, every wave of the core being at an instruction boundary (R435, R438, assumption 70). -/
def State.haltDone (s : State) (core : Nat) : Bool :=
  (s.core core).dbg.halt && !(s.waves.any fun w => coreOf w.1 == core && w.2.asking)

/-- A debug module's registers (R221, R435, R439, R440). A command is carried out in one step, so that BUSY reads 0 between
steps (assumption 70). -/
def State.readDebug (s : State) (core off : Nat) : Nat :=
  let d := (s.core core).dbg
  let k := off % 0x100 / 16
  if off = 0x000 then d.ctx + flagAt d.attached 17 + flagAt d.refused 18
  else if off = 0x008 then flagAt d.halt 0 + flagAt (s.haltDone core) 1
  else if off = 0x018 then d.buf.toNat
  else if 0x100 ≤ off ∧ off < 0x180 ∧ off % 16 = 0 then ((d.breaks[k]?).getD 0).toNat
  else if 0x180 ≤ off ∧ off < 0x1C0 ∧ off % 16 = 0 then ((d.watchAddr[k - 8]?).getD 0).toNat
  else if 0x180 ≤ off ∧ off < 0x1C0 then ((d.watchCtl[k - 8]?).getD 0).toNat
  else if off = 0x200 then d.gsClock.toNat
  else if off = 0x208 then d.gsSent.toNat
  else if off = 0x210 then d.gsRecv.toNat
  else if off = 0x218 then flagAt d.gsValid 0
  else if off = 0x300 then d.traceBase.toNat
  else if off = 0x308 then d.traceCtl.toNat
  else if off = 0x310 then d.traceProd.toNat
  else if off = 0x318 then d.traceCons.toNat
  else if 0x400 ≤ off ∧ off < 0x440 ∧ off % 16 = 0 then ((d.evcnt[k]?).getD 0).toNat
  else if 0x400 ≤ off ∧ off < 0x440 then ((d.evsel[k]?).getD 0).toNat
  else 0

/-- A pavilion's control block (R398, R420, R447). FLTRESP, GO and RESUME read zero. -/
def State.readPav (s : State) (pav off : Nat) : Nat :=
  let p := s.pav pav
  if 16 ≤ pav then 0
  else if off < 0x4000 then lineField (s.desc pav (off / 64)) (off % 64) 8
  else if off < 0x8000 then leNat (((s.queue pav ((off - 0x4000) / 64)).bytes.drop (off % 64)).take 8)
  else if off = 0x8000 then p.fbring.toNat
  else if off = 0x8008 then p.fltring.toNat
  else if off = 0x8018 then p.sdAddr.toNat
  else if off = 0x8020 then p.sdSize.toNat
  else if off = 0x8028 then flagAt p.sdBusy 1 + p.sdCtx.toNat * 4
  else if off = 0x8030 then p.evring.toNat
  else if off = 0x8038 then p.ctxtab.toNat
  else if off = 0x8040 then p.ctxcount.toNat
  else if off = 0x8048 then p.pctx.toNat + flagAt p.busy 17 + flagAt p.saved 18
  else 0

/-- The physical function's own registers (R425, R431 to R433, R446). -/
def State.readPf (s : State) (off : Nat) : Nat :=
  let f := s.pf
  let part (x : BitVec 256) (base : Nat) : Nat := (x.extractLsb' (8 * (off - base)) 64).toNat
  if off = 0x000 then f.ready.toNat
  else if off = 0x008 then f.readyErr.toNat
  else if 0x020 ≤ off ∧ off < 0x040 then part f.devfeat 0x020
  else if 0x040 ≤ off ∧ off < 0x060 then part f.drvfeat 0x040
  else if off = 0x060 then flagAt f.locked 0 + flagAt f.featErr 1
  else if 0x100 ≤ off ∧ off < 0x180 then tableRead f.vfmap (off - 0x100)
  else if off = 0x200 then f.mapout.toNat + flagAt f.mapoutBusy 31
  else if off = 0x208 then f.scrubPeriod.toNat
  else if off = 0x210 then f.bvctl.toNat
  else if off = 0x218 then f.bvring.toNat
  else if off = 0x220 then f.impcount.toNat
  else if off = 0x228 then
    flagAt f.ingValid 0 + f.ingCause.toNat * 2 + f.ingIndex.toNat * 16 + f.ingCtx.toNat * 65536 + f.ingCount.toNat * 2 ^ 32
  else if off = 0x230 then f.ingAddr.toNat
  else if off = 0x238 then f.pfevring.toNat
  else if off = 0x240 then flagAt f.ualen 0 + flagAt f.ualup 1 + flagAt f.loss 2
  else if off = 0x248 then f.power.toNat
  else if off = 0x250 then f.drallow.toNat
  else if 0x1000 ≤ off ∧ off < 0x2000 then
    ((s.errorAt ((off - 0x1000) / 0x800) (off % 0x800 / 32)).extractLsb' (8 * (off % 32)) 64).toNat
  else if off = 0x2000 ∨ off = 0x2008 then ((s.errstat[(off - 0x2000) / 8]?).getD 0).toNat
  else if 0x20000 ≤ off ∧ off < 0x40000 then tableRead f.imports (off - 0x20000)
  else 0

/-- A 64-bit read at an aligned offset of the physical function's BAR0, or of a VF's; a register of a function that is not ready
reads 0. The spec gives no access width: every read is of eight bytes, so that byte n of VFMAP is part of the read at its multiple
of 8, and a read at any other offset answers 0 (DESIGN CHOICE, assumption 45). -/
def State.readRegister (s : State) (vf : Option Nat) (off : Nat) : DWord :=
  match vf with
  | some n =>
    match s.vfPav n with
    | some p => if off % 8 ≠ 0 ∨ 0x10000 ≤ off ∨ !s.regsUp then 0 else BitVec.ofNat 64 (s.readPav p off)
    | none => 0
  | none =>
    if off % 8 ≠ 0 then 0
    else if !s.regReady off then 0
    else if 0x40000 ≤ off ∧ off < 0x41000 then BitVec.ofNat 64 (tableRead s.pf.fwmbox (off - 0x40000))
    else if 0x100000 ≤ off ∧ off < 0x100000 + 224 * 0x1000 then
      BitVec.ofNat 64 (s.readDebug ((off - 0x100000) / 0x1000) (off % 0x1000))
    else if 0x200000 ≤ off ∧ off < 0x300000 then BitVec.ofNat 64 (s.readPav ((off - 0x200000) / 0x10000) (off % 0x10000))
    else BitVec.ofNat 64 (s.readPf off)

end Sys2Proof.Machine
end

