-- ==== Sys2Proof/Machine/Dispatch.lean ====
section
/-! DEFINITION. The dispatch: one arm per instruction, each one call of its meaning. -/

namespace Sys2Proof.Machine

/-- What one instruction, step or event does. -/
def exec (i : Instr) (s : State) : Host.Outcome State Fault Refusal :=
  match i with
  | .nop => Sys2Proof.Machine.execNop s
  | .model imm => Sys2Proof.Machine.execModel imm s
  | .modeh imm => Sys2Proof.Machine.execModeh imm s
  | .modev a => Sys2Proof.Machine.execModev a s
  | .getsr d sr => Sys2Proof.Machine.execGetsr d sr s
  | .setsr a sr => Sys2Proof.Machine.execSetsr a sr s
  | .ldi d imm => Sys2Proof.Machine.execLdi d imm s
  | .ldih d imm => Sys2Proof.Machine.execLdih d imm s
  | .pcrel d imm => Sys2Proof.Machine.execPcrel d imm s
  | .cbase d imm => Sys2Proof.Machine.execCbase d imm s
  | .mov d a => Sys2Proof.Machine.execMov d a s
  | .sel d a b => Sys2Proof.Machine.execSel d a b s
  | .add d a b => Sys2Proof.Machine.execAdd d a b s
  | .sub d a b => Sys2Proof.Machine.execSub d a b s
  | .mul d a b => Sys2Proof.Machine.execMul d a b s
  | .mulh d a b => Sys2Proof.Machine.execMulh d a b s
  | .mad d a b => Sys2Proof.Machine.execMad d a b s
  | .min d a b => Sys2Proof.Machine.execMin d a b s
  | .max d a b => Sys2Proof.Machine.execMax d a b s
  | .abs d a => Sys2Proof.Machine.execAbs d a s
  | .neg d a => Sys2Proof.Machine.execNeg d a s
  | .and d a b => Sys2Proof.Machine.execAnd d a b s
  | .or d a b => Sys2Proof.Machine.execOr d a b s
  | .xor d a b => Sys2Proof.Machine.execXor d a b s
  | .not d a => Sys2Proof.Machine.execNot d a s
  | .shl d a b => Sys2Proof.Machine.execShl d a b s
  | .shr d a b => Sys2Proof.Machine.execShr d a b s
  | .clz d a => Sys2Proof.Machine.execClz d a s
  | .popc d a => Sys2Proof.Machine.execPopc d a s
  | .bfe d a b => Sys2Proof.Machine.execBfe d a b s
  | .bfi d a b => Sys2Proof.Machine.execBfi d a b s
  | .addi d a imm => Sys2Proof.Machine.execAddi d a imm s
  | .shli d a c => Sys2Proof.Machine.execShli d a c s
  | .shri d a c => Sys2Proof.Machine.execShri d a c s
  | .andi d a imm => Sys2Proof.Machine.execAndi d a imm s
  | .muli d a imm => Sys2Proof.Machine.execMuli d a imm s
  | .adda d a b => Sys2Proof.Machine.execAdda d a b s
  | .lea2 d a b => Sys2Proof.Machine.execLea2 d a b s
  | .lea4 d a b => Sys2Proof.Machine.execLea4 d a b s
  | .lea8 d a b => Sys2Proof.Machine.execLea8 d a b s
  | .suba d a b => Sys2Proof.Machine.execSuba d a b s
  | .cmpeq p a b => Sys2Proof.Machine.execCmpeq p a b s
  | .cmpne p a b => Sys2Proof.Machine.execCmpne p a b s
  | .cmplt p a b => Sys2Proof.Machine.execCmplt p a b s
  | .cmple p a b => Sys2Proof.Machine.execCmple p a b s
  | .cmpgt p a b => Sys2Proof.Machine.execCmpgt p a b s
  | .cmpge p a b => Sys2Proof.Machine.execCmpge p a b s
  | .cmpun p a b => Sys2Proof.Machine.execCmpun p a b s
  | .pand p a b => Sys2Proof.Machine.execPand p a b s
  | .por p a b => Sys2Proof.Machine.execPor p a b s
  | .pxor p a b => Sys2Proof.Machine.execPxor p a b s
  | .pnot p a => Sys2Proof.Machine.execPnot p a s
  | .ballot d a => Sys2Proof.Machine.execBallot d a s
  | .pfrom p a => Sys2Proof.Machine.execPfrom p a s
  | .shape d a => Sys2Proof.Machine.execShape d a s
  | .expand d a => Sys2Proof.Machine.execExpand d a s
  | .laneid d => Sys2Proof.Machine.execLaneid d s
  | .readlane d a b => Sys2Proof.Machine.execReadlane d a b s
  | .shfl d a b => Sys2Proof.Machine.execShfl d a b s
  | .shflup d a n => Sys2Proof.Machine.execShflup d a n s
  | .shfldn d a n => Sys2Proof.Machine.execShfldn d a n s
  | .shflx d a n => Sys2Proof.Machine.execShflx d a n s
  | .vconflict d a => Sys2Proof.Machine.execVconflict d a s
  | .scanadd d a => Sys2Proof.Machine.execScanadd d a s
  | .redadd d a => Sys2Proof.Machine.execRedadd d a s
  | .redmin d a => Sys2Proof.Machine.execRedmin d a s
  | .redmax d a => Sys2Proof.Machine.execRedmax d a s
  | .compact d a => Sys2Proof.Machine.execCompact d a s
  | .fadd d a b => Sys2Proof.Machine.execFadd d a b s
  | .fsub d a b => Sys2Proof.Machine.execFsub d a b s
  | .fmul d a b => Sys2Proof.Machine.execFmul d a b s
  | .fma d a b => Sys2Proof.Machine.execFma d a b s
  | .fmin d a b => Sys2Proof.Machine.execFmin d a b s
  | .fmax d a b => Sys2Proof.Machine.execFmax d a b s
  | .fabs d a => Sys2Proof.Machine.execFabs d a s
  | .fneg d a => Sys2Proof.Machine.execFneg d a s
  | .frcp d a => Sys2Proof.Machine.execFrcp d a s
  | .frsq d a => Sys2Proof.Machine.execFrsq d a s
  | .fsqrt d a => Sys2Proof.Machine.execFsqrt d a s
  | .fexp2 d a => Sys2Proof.Machine.execFexp2 d a s
  | .flog2 d a => Sys2Proof.Machine.execFlog2 d a s
  | .fsinpi d a => Sys2Proof.Machine.execFsinpi d a s
  | .fcospi d a => Sys2Proof.Machine.execFcospi d a s
  | .frnd d a => Sys2Proof.Machine.execFrnd d a s
  | .fclass d a => Sys2Proof.Machine.execFclass d a s
  | .fdot2 d a b => Sys2Proof.Machine.execFdot2 d a b s
  | .cvt d a => Sys2Proof.Machine.execCvt d a s
  | .pack d a b => Sys2Proof.Machine.execPack d a b s
  | .unpk d a sel => Sys2Proof.Machine.execUnpk d a sel s
  | .fdiv d a b => Sys2Proof.Machine.execFdiv d a b s
  | .bra off => Sys2Proof.Machine.execBra off s
  | .brc off => Sys2Proof.Machine.execBrc off s
  | .brca off => Sys2Proof.Machine.execBrca off s
  | .call off => Sys2Proof.Machine.execCall off s
  | .callr a => Sys2Proof.Machine.execCallr a s
  | .ret => Sys2Proof.Machine.execRet s
  | .jmpr a => Sys2Proof.Machine.execJmpr a s
  | .ifLanes off => Sys2Proof.Machine.execIfLanes off s
  | .elseLanes off => Sys2Proof.Machine.execElseLanes off s
  | .endIf => Sys2Proof.Machine.execEndIf s
  | .loopLanes off => Sys2Proof.Machine.execLoopLanes off s
  | .breakLanes off => Sys2Proof.Machine.execBreakLanes off s
  | .contLanes off => Sys2Proof.Machine.execContLanes off s
  | .endLoop off => Sys2Proof.Machine.execEndLoop off s
  | .exit => Sys2Proof.Machine.execExit s
  | .trig => Sys2Proof.Machine.execTrig s
  | .spawn a b => Sys2Proof.Machine.execSpawn a b s
  | .suspend a => Sys2Proof.Machine.execSuspend a s
  | .join a => Sys2Proof.Machine.execJoin a s
  | .deq d q => Sys2Proof.Machine.execDeq d q s
  | .enq d a b => Sys2Proof.Machine.execEnq d a b s
  | .yield => Sys2Proof.Machine.execYield s
  | .bar n => Sys2Proof.Machine.execBar n s
  | .ld d a imm => Sys2Proof.Machine.execLd d a imm s
  | .ldx d a b => Sys2Proof.Machine.execLdx d a b s
  | .st d a imm => Sys2Proof.Machine.execSt d a imm s
  | .stx d a b => Sys2Proof.Machine.execStx d a b s
  | .lds d a imm => Sys2Proof.Machine.execLds d a imm s
  | .sts d a imm => Sys2Proof.Machine.execSts d a imm s
  | .pref a imm => Sys2Proof.Machine.execPref a imm s
  | .ldz d a b => Sys2Proof.Machine.execLdz d a b s
  | .stz d a b => Sys2Proof.Machine.execStz d a b s
  | .aadd d a b => Sys2Proof.Machine.execAadd d a b s
  | .amin d a b => Sys2Proof.Machine.execAmin d a b s
  | .amax d a b => Sys2Proof.Machine.execAmax d a b s
  | .aand d a b => Sys2Proof.Machine.execAand d a b s
  | .aor d a b => Sys2Proof.Machine.execAor d a b s
  | .axor d a b => Sys2Proof.Machine.execAxor d a b s
  | .axchg d a b => Sys2Proof.Machine.execAxchg d a b s
  | .acas d a b => Sys2Proof.Machine.execAcas d a b s
  | .fence order scope engines unordered => Sys2Proof.Machine.execFence order scope engines unordered s
  | .publish a => Sys2Proof.Machine.execPublish a s
  | .arrive d a => Sys2Proof.Machine.execArrive d a s
  | .arrivetx d a b => Sys2Proof.Machine.execArrivetx d a b s
  | .waitph a b => Sys2Proof.Machine.execWaitph a b s
  | .cpyset a reg ch => Sys2Proof.Machine.execCpyset a reg ch s
  | .cpygo d ch => Sys2Proof.Machine.execCpygo d ch s
  | .waitid a ch => Sys2Proof.Machine.execWaitid a ch s
  | .rgather d a b => Sys2Proof.Machine.execRgather d a b s
  | .rscat d a b => Sys2Proof.Machine.execRscat d a b s
  | .rscatadd d a b => Sys2Proof.Machine.execRscatadd d a b s
  | .coll d a b => Sys2Proof.Machine.execColl d a b s
  | .mma slot k a b => Sys2Proof.Machine.execMma slot k a b s
  | .mmap slot k a b => Sys2Proof.Machine.execMmap slot k a b s
  | .mxfence d => Sys2Proof.Machine.execMxfence d s
  | .mxwait a => Sys2Proof.Machine.execMxwait a s
  | .acswap mask => Sys2Proof.Machine.execAcswap mask s
  | .acld d a slot => Sys2Proof.Machine.execAcld d a slot s
  | .acst d a slot => Sys2Proof.Machine.execAcst d a slot s
  | .aczero mask => Sys2Proof.Machine.execAczero mask s
  | .acdrain a slot => Sys2Proof.Machine.execAcdrain a slot s
  | .sacc sd a ss => Sys2Proof.Machine.execSacc sd a ss s
  | .cbload a cb => Sys2Proof.Machine.execCbload a cb s
  | .mxredx slot a => Sys2Proof.Machine.execMxredx slot a s
  | .rcfence => Sys2Proof.Machine.execRcfence s
  | .taload a mode => Sys2Proof.Machine.execTaload a mode s
  | .taeval slot a b => Sys2Proof.Machine.execTaeval slot a b s
  | .leafgather d a b => Sys2Proof.Machine.execLeafgather d a b s
  | .sgnproj d a b => Sys2Proof.Machine.execSgnproj d a b s
  | .tlaunch d a b => Sys2Proof.Machine.execTlaunch d a b s
  | .cqpop d => Sys2Proof.Machine.execCqpop d s
  | .cqwait a => Sys2Proof.Machine.execCqwait a s
  | .ldlod d a b => Sys2Proof.Machine.execLdlod d a b s
  | .sample d a b => Sys2Proof.Machine.execSample d a b s
  | .primemit a => Sys2Proof.Machine.execPrimemit a s
  | .visrd d a => Sys2Proof.Machine.execVisrd d a s
  | .trap code => Sys2Proof.Machine.execTrap code s
  | .brk code => Sys2Proof.Machine.execBrk code s
  | .rte => Sys2Proof.Machine.execRte s
  | .nfetch a => Sys2Proof.Machine.execNfetch a s
  | .ndec d => Sys2Proof.Machine.execNdec d s
  | .nfield d a k => Sys2Proof.Machine.execNfield d a k s
  | .nchild d a => Sys2Proof.Machine.execNchild d a s
  | .boxt d a => Sys2Proof.Machine.execBoxt d a s
  | .trit d a => Sys2Proof.Machine.execTrit d a s
  | .frust d a => Sys2Proof.Machine.execFrust d a s
  | .kcmp d a mode => Sys2Proof.Machine.execKcmp d a mode s
  | .krange d a b => Sys2Proof.Machine.execKrange d a b s
  | .dist d a b metric dims => Sys2Proof.Machine.execDist d a b metric dims s
  | .topk d a b => Sys2Proof.Machine.execTopk d a b s
  | .push a b => Sys2Proof.Machine.execPush a b s
  | .pushm a b order => Sys2Proof.Machine.execPushm a b order s
  | .pop d => Sys2Proof.Machine.execPop d s
  | .stkd d => Sys2Proof.Machine.execStkd d s
  | .ldq d width k => Sys2Proof.Machine.execLdq d width k s
  | .stq a width k => Sys2Proof.Machine.execStq a width k s
  | .ldn d a k => Sys2Proof.Machine.execLdn d a k s
  | .gtsAdd d a b => Sys2Proof.Machine.execGtsAdd d a b s
  | .gtsAddImm d a imm => Sys2Proof.Machine.execGtsAddImm d a imm s
  | .gtsSub d a b => Sys2Proof.Machine.execGtsSub d a b s
  | .gtsSubImm d a imm => Sys2Proof.Machine.execGtsSubImm d a imm s
  | .gtsMul d a b => Sys2Proof.Machine.execGtsMul d a b s
  | .gtsMulImm d a imm => Sys2Proof.Machine.execGtsMulImm d a imm s
  | .gtsAnd d a b => Sys2Proof.Machine.execGtsAnd d a b s
  | .gtsAndImm d a imm => Sys2Proof.Machine.execGtsAndImm d a imm s
  | .gtsOr d a b => Sys2Proof.Machine.execGtsOr d a b s
  | .gtsOrImm d a imm => Sys2Proof.Machine.execGtsOrImm d a imm s
  | .gtsXor d a b => Sys2Proof.Machine.execGtsXor d a b s
  | .gtsXorImm d a imm => Sys2Proof.Machine.execGtsXorImm d a imm s
  | .gtsShl d a b => Sys2Proof.Machine.execGtsShl d a b s
  | .gtsShlImm d a imm => Sys2Proof.Machine.execGtsShlImm d a imm s
  | .gtsShr d a b => Sys2Proof.Machine.execGtsShr d a b s
  | .gtsShrImm d a imm => Sys2Proof.Machine.execGtsShrImm d a imm s
  | .gtsMov d a => Sys2Proof.Machine.execGtsMov d a s
  | .gtsLdi d imm => Sys2Proof.Machine.execGtsLdi d imm s
  | .gtsCmp a b cond => Sys2Proof.Machine.execGtsCmp a b cond s
  | .jump off => Sys2Proof.Machine.execJump off s
  | .jumpF off => Sys2Proof.Machine.execJumpF off s
  | .jumpNF off => Sys2Proof.Machine.execJumpNF off s
  | .emit a => Sys2Proof.Machine.execEmit a s
  | .hook a k => Sys2Proof.Machine.execHook a k s
  | .done a => Sys2Proof.Machine.execDone a s
  | .cover a b => Sys2Proof.Machine.execCover a b s
  | .handoff a => Sys2Proof.Machine.execHandoff a s
  | .reset => Sys2Proof.Machine.execReset s
  | .functionReady bit ok => Sys2Proof.Machine.execFunctionReady bit ok s
  | .thermalTrip => Sys2Proof.Machine.execThermalTrip s
  | .throttleStep power => Sys2Proof.Machine.execThrottleStep power s
  | .ualinkEnable v => Sys2Proof.Machine.execUalinkEnable v s
  | .ualinkUp => Sys2Proof.Machine.execUalinkUp s
  | .ualinkLoss => Sys2Proof.Machine.execUalinkLoss s
  | .remoteWalkerTimeout walker => Sys2Proof.Machine.execRemoteWalkerTimeout walker s
  | .fabricTimeout req => Sys2Proof.Machine.execFabricTimeout req s
  | .fabricResponse req reply => Sys2Proof.Machine.execFabricResponse req reply s
  | .ingressRequest r => Sys2Proof.Machine.execIngressRequest r s
  | .ingressTimeout id => Sys2Proof.Machine.execIngressTimeout id s
  | .handoffArrival m => Sys2Proof.Machine.execHandoffArrival m s
  | .remoteEntryArrival query status payload record => Sys2Proof.Machine.execRemoteEntryArrival query status payload record s
  | .hostEnqueueStore off whole data => Sys2Proof.Machine.execHostEnqueueStore off whole data s
  | .hostMemStore addr data => Sys2Proof.Machine.execHostMemStore addr data s
  | .hostMemRead addr read => Sys2Proof.Machine.execHostMemRead addr read s
  | .cxlSnoop line => Sys2Proof.Machine.execCxlSnoop line s
  | .spdmMeasurements nonce => Sys2Proof.Machine.execSpdmMeasurements nonce s
  | .registerWrite vf off value => Sys2Proof.Machine.execRegisterWrite vf off value s
  | .queueEnable pav q desc => Sys2Proof.Machine.execQueueEnable pav q desc s
  | .queueDisable pav q => Sys2Proof.Machine.execQueueDisable pav q s
  | .faultRetry pav fltid => Sys2Proof.Machine.execFaultRetry pav fltid s
  | .faultUnresolvable pav fltid => Sys2Proof.Machine.execFaultUnresolvable pav fltid s
  | .faultRecordPost pav => Sys2Proof.Machine.execFaultRecordPost pav s
  | .shootdownGo pav ctx => Sys2Proof.Machine.execShootdownGo pav ctx s
  | .shootdownAck pav unit => Sys2Proof.Machine.execShootdownAck pav unit s
  | .preemptGo pav pctx => Sys2Proof.Machine.execPreemptGo pav pctx s
  | .preemptResume pav => Sys2Proof.Machine.execPreemptResume pav s
  | .engineStop pav engine => Sys2Proof.Machine.execEngineStop pav engine s
  | .gangStop pav => Sys2Proof.Machine.execGangStop pav s
  | .mapout value => Sys2Proof.Machine.execMapout value s
  | .pairMapOut pair => Sys2Proof.Machine.execPairMapOut pair s
  | .featureAccept value => Sys2Proof.Machine.execFeatureAccept value s
  | .errRecordFree die n => Sys2Proof.Machine.execErrRecordFree die n s
  | .debugAttach core ctx => Sys2Proof.Machine.execDebugAttach core ctx s
  | .debugDetach core => Sys2Proof.Machine.execDebugDetach core s
  | .debugHalt core => Sys2Proof.Machine.execDebugHalt core s
  | .debugRelease core => Sys2Proof.Machine.execDebugRelease core s
  | .debugStep core slot => Sys2Proof.Machine.execDebugStep core slot s
  | .debugSave core slot => Sys2Proof.Machine.execDebugSave core slot s
  | .debugRestore core slot => Sys2Proof.Machine.execDebugRestore core slot s
  | .debugSkipBreakpoint core slot => Sys2Proof.Machine.execDebugSkipBreakpoint core slot s
  | .debugResume core slot => Sys2Proof.Machine.execDebugResume core slot s
  | .belvedereTick => Sys2Proof.Machine.execBelvedereTick s
  | .patrolScrub place ecc => Sys2Proof.Machine.execPatrolScrub place ecc s
  | .recordStart die src => Sys2Proof.Machine.execRecordStart die src s
  | .gridRecordReceive die grid => Sys2Proof.Machine.execGridRecordReceive die grid s
  | .blockPlacement die => Sys2Proof.Machine.execBlockPlacement die s
  | .stealMessage die grid => Sys2Proof.Machine.execStealMessage die grid s
  | .stealReply die => Sys2Proof.Machine.execStealReply die s
  | .persistentGridAdmit grid => Sys2Proof.Machine.execPersistentGridAdmit grid s
  | .gridTriggered pav q => Sys2Proof.Machine.execGridTriggered pav q s
  | .deqDeliver pav q => Sys2Proof.Machine.execDeqDeliver pav q s
  | .spawnAppend wave => Sys2Proof.Machine.execSpawnAppend wave s
  | .waveEnd wave => Sys2Proof.Machine.execWaveEnd wave s
  | .blockComplete block => Sys2Proof.Machine.execBlockComplete block s
  | .loadReturn wave arrival => Sys2Proof.Machine.execLoadReturn wave arrival s
  | .memoryPerform agent idx hops => Sys2Proof.Machine.execMemoryPerform agent idx hops s
  | .drPropagate die => Sys2Proof.Machine.execDrPropagate die s
  | .logReplay wave entry => Sys2Proof.Machine.execLogReplay wave entry s
  | .trapDeliver wave => Sys2Proof.Machine.execTrapDeliver wave s
  | .queryStart core => Sys2Proof.Machine.execQueryStart core s
  | .tlaunchEnqueue wave => Sys2Proof.Machine.execTlaunchEnqueue wave s
  | .walkerWaitEnd x => Sys2Proof.Machine.execWalkerWaitEnd x s
  | .sluicePost walker => Sys2Proof.Machine.execSluicePost walker s
  | .copyChunk core ch => Sys2Proof.Machine.execCopyChunk core ch s
  | .transferRetire core ch id => Sys2Proof.Machine.execTransferRetire core ch id s
  | .cpygoStart wave => Sys2Proof.Machine.execCpygoStart wave s
  | .elementAccess core => Sys2Proof.Machine.execElementAccess core s
  | .collCombine => Sys2Proof.Machine.execCollCombine s
  | .matrixOwnershipGrant pair block => Sys2Proof.Machine.execMatrixOwnershipGrant pair block s
  | .matrixOpRetire pair check => Sys2Proof.Machine.execMatrixOpRetire pair check s
  | .acswapExchange wave => Sys2Proof.Machine.execAcswapExchange wave s
  | .mxredxArrival pair => Sys2Proof.Machine.execMxredxArrival pair s
  | .feedbackLog pav => Sys2Proof.Machine.execFeedbackLog pav s
  | .primemitSend wave => Sys2Proof.Machine.execPrimemitSend wave s
  | .triangleArrival die => Sys2Proof.Machine.execTriangleArrival die s
  | .triangleCommit die => Sys2Proof.Machine.execTriangleCommit die s
  | .tileSpill die tile => Sys2Proof.Machine.execTileSpill die tile s
  | .illegalInstructionWord w => Sys2Proof.Machine.execIllegalInstructionWord w s
  | .gtsIllegalWord w => Sys2Proof.Machine.execGtsIllegalWord w s
  | .corePowerGating core => Sys2Proof.Machine.execCorePowerGating core s
  | .corePowerUngating core => Sys2Proof.Machine.execCorePowerUngating core s

end Sys2Proof.Machine
end

