-- ==== Sys2Proof/Machine/Issue.lean ====
section
/-! DEFINITION. The issue of wave instructions and walker steps: fetch (R71, R72, R253), the checks before the instruction
(R81, R211, R218, R335, R436), the scoreboard (R62, R68), what the device may do next (R67, R230), and the clocks (R60, R61). -/

namespace Sys2Proof.Machine

/-! ### Waves: fetch -/

/-- A breakpoint of the attached debugger matches, check 1 of R81 (R435, R436, R443). -/
def State.breaks (s : State) (k : Nat) (w : Wave) : Bool :=
  let who := s.whoOf k w
  s.attached who.core who.pav who.ctx && !w.skipBreak
    && (s.core who.core).dbg.breaks.toList.any fun b => b.getLsbD 0 && decide (b.extractLsb' 2 50 = w.pc.extractLsb' 2 50)

/-- A fetch that gives no word (R71, R210, R419, R426). -/
def State.stopFetch (s : State) (k : Nat) (w : Wave) : Stop → State
  | .trap t => s.raiseTrap k w t
  | .pageFault va kind _ _ =>
    let who := s.whoOf k w
    if s.faultRing who.pav then
      (s.pendFault who.pav who.ctx who.core va kind (.wave k) 0).setWave k { w with wait := .fault s.fresh, answers := [] }
    else s.raiseTrap k w { cause := .accessViolation, lanes := 0, addr := va }
  | .fabric asks _ => s.askPartner k w (.wave k) asks none
  | .wait r => s.setWave k { w with wait := r }

/-! ### Waves: open log entries (R211) -/

/-- Where a plain load or store accesses. -/
def plainWhere (w : Wave) : Instr → Option Where
  | .ld _ a imm => some (w.atImm a imm)
  | .ldx _ a b => some (w.atReg a b)
  | .lds _ a imm => some (w.atScratch a imm)
  | .st _ a imm => some (w.atImm a imm)
  | .stx _ a b => some (w.atReg a b)
  | .sts _ a imm => some (w.atScratch a imm)
  | _ => none

/-- The instruction is a plain load. -/
def isLoad : Instr → Bool
  | .ld _ _ _ => true
  | .ldx _ _ _ => true
  | .lds _ _ _ => true
  | _ => false

/-- Relaxed order. -/
def relaxed (wm : Word) : Bool := wmMO wm == 0#3

/-- The bytes that a plain access of the lanes `act` covers, each run as first byte and size: by virtual address, a scratchpad
offset as the address of the own-scratch window (R174), and by place where the lane is translated. -/
def State.plainBytes (s : State) (who : Who) (i : Instr) (act : Word) (x : Where) (n : Nat) : List (Nat × Nat) :=
  (s.whereAccesses who (if isLoad i then .read else .write) act x n).flatMap fun a =>
    (a.va.toNat + (if x.own then globalEnd else 0), n) :: a.ok.map fun y => (2 ^ 64 + y.key, y.len)

/-- The third row of R211: a relaxed plain access to RC, UO or DR pages that shares no byte with an open relaxed plain one. A
load that faults logs; a store that faults has no kind yet and waits. -/
def State.plainPasses (s : State) (k : Nat) (w : Wave) (i : Instr) : Bool :=
  match plainWhere w i with
  | none => false
  | some x =>
    let who := s.whoOf k w
    let act := activeMask w
    let n := accessSize (wmET w.wm)
    let mine := s.plainBytes who i act x n
    let kindOk (a : LaneAccess) : Bool := match a.spans with
      | .ok l => l.all fun y => y.ord != 0
      | .error (.fault _) => isLoad i
      | .error _ => true
    let apart (e : LogEntry) : Bool :=
      relaxed e.wm && (match plainWhere (e.view w []) e.instr with
        | none => false
        | some y => (s.plainBytes who e.instr e.lanes y (accessSize (wmET e.wm))).all fun b =>
            mine.all fun c => decide (b.1 + b.2 ≤ c.1) || decide (c.1 + c.2 ≤ b.1))
    relaxed w.wm && (s.whereAccesses who (if isLoad i then .read else .write) act x n).all kindOk && w.log.all apart

/-- One more instruction after the open entries, with the younger entries that are still to replay, would take PAST of some entry
past 255 (R211, R213). -/
def Wave.pastFull (w : Wave) : Bool :=
  w.log.zipIdx.any fun x => decide (255 ≤ x.1.past + (w.log.length - 1 - x.2))

/-- Open log entries hold an instruction at the issue point (R210, R211, R218). -/
def State.logHolds (s : State) (k : Nat) (w : Wave) (i : Instr) : Bool :=
  let uses := sourcesOf w i ++ destsOf w.wm i
  w.log.any (fun e => e.holds || e.step || (destsOf e.wm e.instr).any fun r => uses.contains r) || w.pastFull
    || (!w.log.isEmpty && (match issueClass w i with
      | .free => false
      | .mask => false
      | .plain => !s.plainPasses k w i
      | .matrix => w.log.any fun e => onMatrix e.instr
      | .records => w.log.any fun e => usesRecord e.instr
      | .ordered => true))

/-! ### Waves: issue -/

/-- The wave's instruction may reach the issue point: it waits for nothing, or for an entry of a log that has room again (R210). -/
def State.unblocked (s : State) (k : Nat) (w : Wave) : Bool :=
  match w.wait with
  | .none => true
  | .passed => true
  | .sampling => !s.samplersOwed k
  | .logRoom _ => s.logRoom k w
  | _ => false

/-- A wave is ready (R67): not waiting, not parked, not stopped by a halt of its core, the thermal trip or a trap, which an
instruction that is in flight at the partner card comes before (R206). -/
def State.ready (s : State) (k : Nat) (w : Wave) : Bool :=
  s.unblocked k w && (!w.trapDue || s.inFlight w) && w.heldTrap.isNone && !s.thermal && !(s.core (coreOf k)).halted && !s.parked k w

/-- The quad may select the wave: it is ready, and did not issue `YIELD` in the step before (R149). -/
def State.selectable (s : State) (k : Nat) (w : Wave) : Bool := s.ready k w && w.yielded != some (s.steps - 1)

/-- The wave that a quad issues (R67): the due waves, longest wait first, then the oldest. -/
def State.pickWave (s : State) (q : Nat) : Option Nat :=
  let l := s.waves.filter fun x => x.1 / 8 == q && s.selectable x.1 x.2
  let before (x y : Nat × Wave) : Bool :=
    let dx := decide (48 ≤ x.2.waited)
    let dy := decide (48 ≤ y.2.waited)
    if dx && dy then decide (y.2.waited < x.2.waited) || (x.2.waited == y.2.waited && decide (x.2.age < y.2.age))
    else if dx then true
    else if dy then false
    else decide (x.2.age < y.2.age)
  (l.foldl (fun best x => match best with
    | none => some x
    | some y => if before x y then some x else some y) none).map fun x => x.1

/-- The other ready waves of a quad have waited one more issue; the one that issued, none (R67). -/
def State.passTime (s : State) (k : Nat) : State :=
  { s with waves := s.waves.map fun (x : Nat × Wave) =>
      if x.1 = k then (x.1, { x.2 with waited := 0 })
      else if x.1 / 8 = k / 8 ∧ s.ready x.1 x.2 then (x.1, { x.2 with waited := x.2.waited + 1 })
      else x }

/-- Rows that an instruction with every lane active has written anew are no longer poisoned (R429). -/
def State.renewRows (s : State) (k : Nat) (gone : List Reg) : State :=
  match s.wave k with
  | none => s
  | some w => if w.retired && !w.badRows.isEmpty then s.setWave k { w with badRows := dropIf gone.contains w.badRows } else s

/-- Run a meaning as the wave's instruction, which writes the registers `written` whole, then what follows its retirement. -/
def State.runAt (s : State) (k : Nat) (w : Wave) (run : State → Host.Outcome State Fault Refusal) (written : List Reg := []) :
    Host.Outcome State Fault Refusal :=
  match run { s.setWave k w with cur := k, issued := (s.steps, k, w.pc) } with
  | .next s' => .next (((s'.renewRows k written).afterRetire k w.pc (activeMask w) w.wsStep).passTime k)
  | r => r

/-- A word at the issue point: it issues, or the open log entries hold it. -/
def State.issueWord (s : State) (k : Nat) (w : Wave) (x : Word) : Host.Outcome State Fault Refusal :=
  match decodeGyrix x with
  | .error _ => s.runAt k w (execIllegalInstructionWord x)
  | .ok i =>
    if s.logHolds k w i then .next (s.setWave k { w with wait := .log })
    else if w.struck i then .next (s.raiseTrap k w { cause := .poison, lanes := 0, addr := 0 })
    else s.runAt k w (exec i) (if activeMask w = fullMask then destsOf w.wm i else [])

/-- One move of a wave, where its quad issues it (R67). A wave whose wait has ended on a halted core retires its instruction. -/
def State.issueWave (s : State) (k : Nat) : Host.Outcome State Fault Refusal :=
  match s.wave k with
  | none => .next s
  | some w =>
    if s.pickWave (k / 8) ≠ some k then .next s
    else if w.wait = .passed then .next (s.completeWait k id)
    else match w.mxCheck with
      | some b => .next (s.raiseTrap k w { cause := .mxCheck, lanes := 0, addr := zext64 b })
      | none =>
        if s.breaks k w then .next (s.raiseTrap k w { cause := .breakpoint, lanes := 0, addr := 0 })
        else match s.fetchWord k w with
          | .error e => .next (s.stopFetch k w e)
          | .ok x => s.issueWord k w x

/-! ### Walkers -/

/-- A walker is ready (R230): it runs, and its core is not halted. -/
def State.walkerReady (s : State) (k : Nat) (w : Walker) : Bool :=
  decide (w.wait = .none) && !s.thermal && !(s.core (k / 64)).halted

/-- The walker that a Millrace issues (R230): of the ready ones that which has waited longest, the lowest number on ties. -/
def State.pickWalker (s : State) (core : Nat) (c : CoreState) : Option Nat :=
  ((c.walkers.filter fun w => s.walkerReady (core * 64 + w.1) w.2).foldl (fun (best : Option (Nat × Walker)) x => match best with
    | none => some x
    | some y => if y.2.waited < x.2.waited then some x else some y) none).map fun x => core * 64 + x.1

/-- The other ready walkers of a core have waited one more step; the one that issued, none (R230). -/
def State.passSteps (s : State) (k : Nat) : State :=
  let core := k / 64
  let c := s.core core
  s.setCore core { c with walkers := c.walkers.map fun (x : Nat × Walker) =>
    let n := if core * 64 + x.1 = k then 0 else if s.walkerReady (core * 64 + x.1) x.2 then x.2.waited + 1 else x.2.waited
    (x.1, { x.2 with waited := n }) }

/-- Run the word of a walker. -/
def State.runStep (s : State) (k : Nat) (x : Word) : Host.Outcome State Fault Refusal :=
  let s := { s with curWalker := k }
  let r := match decodeGts x with
    | .ok i => exec i s
    | .error _ => execGtsIllegalWord x s
  match r with
  | .next s' => .next (s'.passSteps k)
  | r => r

/-- One move of a walker, where its Millrace issues it (R230): the start of its query, or its next step (R231, R255). -/
def State.issueWalker (s : State) (k : Nat) : Host.Outcome State Fault Refusal :=
  match s.walker k with
  | none => .next s
  | some w =>
    if s.pickWalker (k / 64) (s.core (k / 64)) ≠ some k then .next s
    else if w.start ≠ .running then .next (s.beginQuery k w)
    else match s.fetchGts k w with
      | .error e => .next (s.stopWalker k w e)
      | .ok x => s.runStep k x

/-! ### What the device may do next -/

/-- A step that the device takes by itself, apart from issue: the instruction of the same name. -/
inductive Own where
  | acswapExchange (wave : Nat)
  | belvedereTick
  | blockComplete (block : Nat)
  | blockPlacement (die : Nat)
  | copyChunk (core ch : Nat)
  | cpygoStart (wave : Nat)
  | deqDeliver (pav q : Nat)
  | drPropagate (die : Nat)
  | elementAccess (core : Nat)
  | engineStop (pav : Nat) (engine : EngineId)
  | faultRecordPost (pav : Nat)
  | feedbackLog (pav : Nat)
  | functionReady (bit : Nat) (ok : Bool)
  | gridRecordReceive (die grid : Nat)
  | loadReturn (wave : Nat)
  | logReplay (wave : Nat) (entry : Nat)
  | matrixOpRetire (pair : Nat) (check : CheckResult)
  | matrixOwnershipGrant (pair block : Nat)
  | memoryPerform (agent idx : Nat)
  | mxredxArrival (pair : Nat)
  | pairMapOut (pair : Nat)
  | persistentGridAdmit (grid : Nat)
  | primemitSend (wave : Nat)
  | queryStart (core : Nat)
  | recordStart (die : Nat) (src : RecordSource)
  | shootdownAck (pav : Nat) (unit : ShootUnit)
  | sluicePost (walker : Nat)
  | spawnAppend (wave : Nat)
  | stealMessage (die grid : Nat)
  | stealReply (die : Nat)
  | tileSpill (die tile : Nat)
  | tlaunchEnqueue (wave : Nat)
  | transferRetire (core ch : Nat) (id : Word)
  | trapDeliver (wave : Nat)
  | triangleArrival (die : Nat)
  | triangleCommit (die : Nat)
  | walkerWaitEnd (walker : Nat)
  | waveEnd (wave : Nat)
  | collCombine
  deriving DecidableEq, Repr

/-- What such a step does: the meaning of the instruction of its name, where nothing goes wrong on the way. -/
def Own.run : Own → State → Host.Outcome State Fault Refusal
  | .acswapExchange wave => execAcswapExchange wave
  | .belvedereTick => execBelvedereTick
  | .blockComplete block => execBlockComplete block
  | .blockPlacement die => execBlockPlacement die
  | .copyChunk core ch => execCopyChunk core ch
  | .cpygoStart wave => execCpygoStart wave
  | .deqDeliver pav q => execDeqDeliver pav q
  | .drPropagate die => execDrPropagate die
  | .elementAccess core => execElementAccess core
  | .engineStop pav engine => execEngineStop pav engine
  | .faultRecordPost pav => execFaultRecordPost pav
  | .feedbackLog pav => execFeedbackLog pav
  | .functionReady bit ok => execFunctionReady bit ok
  | .gridRecordReceive die grid => execGridRecordReceive die grid
  | .loadReturn wave => execLoadReturn wave { ecc := .clean }
  | .logReplay wave entry => execLogReplay wave entry
  | .matrixOpRetire pair check => execMatrixOpRetire pair check
  | .matrixOwnershipGrant pair block => execMatrixOwnershipGrant pair block
  | .memoryPerform agent idx => execMemoryPerform agent idx {}
  | .mxredxArrival pair => execMxredxArrival pair
  | .pairMapOut pair => execPairMapOut pair
  | .persistentGridAdmit grid => execPersistentGridAdmit grid
  | .primemitSend wave => execPrimemitSend wave
  | .queryStart core => execQueryStart core
  | .recordStart die src => execRecordStart die src
  | .shootdownAck pav unit => execShootdownAck pav unit
  | .sluicePost walker => execSluicePost walker
  | .spawnAppend wave => execSpawnAppend wave
  | .stealMessage die grid => execStealMessage die grid
  | .stealReply die => execStealReply die
  | .tileSpill die tile => execTileSpill die tile
  | .tlaunchEnqueue wave => execTlaunchEnqueue wave
  | .transferRetire core ch id => execTransferRetire core ch id
  | .trapDeliver wave => execTrapDeliver wave
  | .triangleArrival die => execTriangleArrival die
  | .triangleCommit die => execTriangleCommit die
  | .walkerWaitEnd walker => execWalkerWaitEnd { walker := walker }
  | .waveEnd wave => execWaveEnd wave
  | .collCombine => execCollCombine

/-- Steps of one wave that end its waits. -/
def waveEvents (k : Nat) (w : Wave) : List Own :=
  let logs := ((List.range w.log.length).filter fun n => match w.log[n]? with
    | some e => decide (e.state = .resolved) && e.fabric.isNone
    | none => false).map fun n => Own.logReplay k n
  let owed := if w.owed.isEmpty then [] else [Own.loadReturn k]
  let trap := if w.trapDue then [Own.trapDeliver k] else []
  let own := match w.wait with
    | .ending => [Own.waveEnd k]
    | .spawnRoom _ _ => [Own.spawnAppend k]
    | .copyRoom _ _ => [Own.cpygoStart k]
    | .launchRoom _ _ _ => [Own.tlaunchEnqueue k]
    | .writers _ => [Own.acswapExchange k]
    | .primRoom _ => [Own.primemitSend k]
    | _ => []
  let unit := if wantsUnit (coreOf k / 2) k w then [Own.matrixOwnershipGrant (coreOf k / 2) w.block] else []
  trap ++ owed ++ logs ++ own ++ unit

/-- Steps of one core and its walkers. -/
def coreEvents (c : Nat) (x : CoreState) : List Own :=
  (if x.fifo.isEmpty then [] else [Own.queryStart c]) ++ (if x.inbox.isEmpty then [] else [Own.elementAccess c])
    ++ ((List.range 4).flatMap fun ch => match x.chans[ch]?.getD [] with
      | [] => []
      | l => Own.copyChunk c ch :: ((l.filter fun t => decide (t.total ≤ t.doneBytes)).map fun t => Own.transferRetire c ch t.id))
    ++ (x.walkers.flatMap fun w => match w.2.wait with
      | .post _ _ _ => [Own.sluicePost (c * 64 + w.1)]
      | .fault _ => [Own.walkerWaitEnd (c * 64 + w.1)]
      | .fabric _ => [Own.walkerWaitEnd (c * 64 + w.1)]
      | .cover _ => [Own.walkerWaitEnd (c * 64 + w.1)]
      | .link => [Own.walkerWaitEnd (c * 64 + w.1)]
      | _ => [])

/-- Steps of the distributor of a die. -/
def State.distEvents (s : State) (die : Nat) : List Own :=
  let queues := s.enabledQueues.flatMap fun q =>
    if s.queueCount q.1 q.2.1 = 0 then []
    else if s.itemQueue q.1 q.2.1 then (if die = 0 then [Own.deqDeliver q.1 q.2.1] else [])
    else [Own.recordStart die (.queue q.1 q.2.1)]
  let lists := ((List.range 4).filter fun c => nonEmpty (((s.dist die).resume[c]?).getD [])).map fun c =>
    Own.recordStart die (.resume c)
  let grids := s.grids.flatMap fun g =>
    (if (g.2.received[die]?).getD true then [Own.stealMessage die g.1] else [Own.gridRecordReceive die g.1])
      ++ (if g.2.persistent && !g.2.admitted && die == 0 then [Own.persistentGridAdmit g.1] else [])
  let placing := if s.grids.isEmpty && s.pavs.all fun p => p.2.savedBlocks.isEmpty && decide (p.2.savedWork = {}) then []
    else [Own.blockPlacement die]
  queues ++ lists ++ grids ++ placing ++ (if (s.dist die).replies.isEmpty then [] else [Own.stealReply die])

/-- The first tile of a die that a triangle is not resolved in. -/
def Triangle.openTile (t : Triangle) (die : Nat) : Option Nat :=
  ((touchedTiles t.viewRec t.verts).find? fun x => tileDie x.1 x.2 == die && !t.resolved.contains (tileNumber t.viewRec x.1 x.2)).map
    fun x => tileNumber t.viewRec x.1 x.2

/-- Steps of the coverage unit and the memory of a die. -/
def State.dieEvents (s : State) (die : Nat) : List Own :=
  let u := s.cover die
  (if u.input.isEmpty then [] else [Own.triangleArrival die]) ++ (if u.binned.isEmpty then [] else [Own.triangleCommit die])
    ++ (if s.drQueue.any fun x => x.1 == die then [Own.drPropagate die] else [])
    ++ (if u.full die then (u.binned.head?.bind fun t => t.openTile die).toList.map (Own.tileSpill die) else [])

/-- Steps of a pavilion's control block. -/
def State.pavEvents (p : Nat) (x : Pavilion) : List Own :=
  (x.sdOwed.map fun u => Own.shootdownAck p u) ++ (x.stopOwed.map fun e => Own.engineStop p e)
    ++ (if x.faults.any fun f => !f.posted then [Own.faultRecordPost p] else [])

/-- The steps that the device takes by itself. What comes from outside (the host, the partner card, the debugger, an error, a
time limit) comes only through the agenda. -/
def State.events (s : State) : List Own :=
  (s.waves.flatMap fun x => waveEvents x.1 x.2) ++ (s.cores.flatMap fun x => coreEvents x.1 x.2)
    ++ ((s.blocks.filter fun b => b.2.alive.isEmpty).map fun b => Own.blockComplete b.1)
    ++ (s.units.flatMap fun u => (if u.2.ops.isEmpty then [] else [Own.matrixOpRetire u.1 .pass])
        ++ (if u.2.redx.isEmpty then [] else [Own.mxredxArrival u.1]))
    ++ [0, 1].flatMap s.distEvents ++ [0, 1].flatMap s.dieEvents
    ++ (s.pavs.flatMap fun p => State.pavEvents p.1 p.2)
    ++ ((distinct (s.stores.map fun p => p.agent)).map fun a => Own.memoryPerform a 0)
    ++ ((distinct (s.logs.map fun l => l.pav)).map fun p => Own.feedbackLog p)
    ++ (if s.colls.any fun m => m.fabric.isNone then [Own.collCombine] else [])
    ++ ((if s.pf.mapoutBusy then [s.pf.mapout.toNat] else s.pf.marked.take 1).map Own.pairMapOut)
    ++ ((List.range 17).filter fun n => !s.pf.ready.getLsbD n && !s.pf.readyErr.getLsbD n).map fun n => Own.functionReady n true

/-- What a step carries out. -/
inductive Choice where
  | move (m : Move)
  | own (e : Own)
  deriving DecidableEq, Repr

/-- Everything the device may do: one wave of each quad by R67, one walker of each Millrace by R230, and the steps it takes by itself. -/
def State.choices (s : State) : List Choice :=
  ((distinct (s.waves.map fun x => x.1 / 8)).filterMap fun q => (s.pickWave q).map fun k => Choice.move (.wave k))
    ++ (s.cores.filterMap fun c => (s.pickWalker c.1 c.2).map fun k => Choice.move (.walker k))
    ++ s.events.map Choice.own

/-- The next move: the latch of a tick that is due (R441), the oldest of the agenda, else one that the spec leaves open among those of
the device (assumption 1). -/
def State.nextChoice (s : State) : Option Choice × State :=
  if s.tickDue then (some (.own .belvedereTick), s)
  else match s.agenda with
  | m :: rest => (some (.move m), { s with agenda := rest })
  | [] => (s.choices[Config.nextMove s.steps % s.choices.length]?, s)

/-! ### One step -/

/-- The instruction is a step or event of the device, which no word encodes. -/
def isEvent : Instr → Bool
  | .illegalInstructionWord _ => false
  | .gtsIllegalWord _ => false
  | i => (encode i).isNone

/-- Carry out a choice. -/
def State.runChoice (s : State) (m : Choice) : Host.Outcome State Fault Refusal :=
  match m with
  | .move (.wave k) => s.issueWave k
  | .move (.walker k) => s.issueWalker k
  | .move (.event e) => if isEvent e then exec e s else .next s
  | .own e => e.run s

/-- A wave or a walker that is not ready has waited for no issue (R67, R230). -/
def State.resetWaits (s : State) : State :=
  let walkers (c : Nat) (x : CoreState) : Assoc Walker := x.walkers.map fun (w : Nat × Walker) =>
    if s.walkerReady (c * 64 + w.1) w.2 then w else (w.1, { w.2 with waited := 0 })
  { s with waves := s.waves.map fun (x : Nat × Wave) => if s.ready x.1 x.2 then x else (x.1, { x.2 with waited := 0 }),
           cores := s.cores.map fun (c : Nat × CoreState) => (c.1, { c.2 with walkers := walkers c.1 c.2 }) }

/-- `CLOCK` passes a multiple of the tick period (R441). -/
def State.passesTick (s : State) (clock : DWord) : Bool :=
  match s.tickPeriod with
  | some p => decide (s.clock.toNat / p ≠ clock.toNat / p)
  | none => false

/-- `CLOCK` and `TIME` go on by what the step took (R60, R61, R458), parked slots are counted (R440), the tick of a snapshot may fall
due (R441), and contexts that have become invalid without work are forgotten (R450). -/
def State.tick (s : State) : State :=
  let n := Config.cyclesOf s.steps
  let s := (s.waves.filter fun x => s.parked x.1 x.2).foldl (fun (t : State) x =>
    let who := s.whoOf x.1 x.2
    t.count who.core who.pav who.ctx 5 n.toNat) s
  { s.resetWaits with
    clock := s.clock + n.setWidth 64, tickDue := s.tickDue || s.passesTick (s.clock + n.setWidth 64),
    time := s.time + (Config.nanosOf s.steps).setWidth 64, steps := s.steps + 1 }.unlatch

/-- One step of the device: a move, and its time. With nothing to do, time passes. -/
def State.oneStep (s : State) : Host.Outcome State Fault Refusal :=
  match s.nextChoice with
  | (none, s) => .next s.tick
  | (some m, s) =>
    match s.runChoice m with
    | .next s' => .next s'.tick
    | r => r

/-! ### Placing one instruction -/

/-- A core as a block of one wave finds it: region 0 maps the first 64 KiB through the sub-pages (R413, R414). -/
def loaderCore (c : CoreState) : CoreState :=
  { c with region := (Vector.replicate 8 0).set 0 1, heapLimit := 0, dbg := {}, gangHalt := false, gated := false,
           ctx := some (0, 0) }

/-- The block of the placed instruction: one wave, no scratchpad. -/
def loaderBlock : Block :=
  { pav := 0, ctx := 0, grid := 0, linear := 0, x := 0, y := 0, z := 0, gridDim := 0x0002000100000001, stage := 0,
    paired := false, alive := [0], waves := 1, scratch := 0, halves := [{ core := 0, base := 0, blockSlot := 0 }], agents := [0] }

/-- Its wave in slot 0 of core 0: the start state of R42 at address 0, due to issue. -/
def loaderWave : Wave :=
  { uid := 0, block := 0, waveId := 0, wsPriv := false, fp := 0x8000, gbudget := 256, rseed := 0x6A5D39C1, pc := 0, age := 0,
    waited := 48, stage := 0, prio := 0 }

/-- The walker of a placed traversal word. -/
def loaderWalker : Walker :=
  { uid := 1, block := 0, launch := 0, waited := 1, w := Vector.replicate 16 0, pc := 0, query := 0, tag := 0, spill := 0,
    prog := emptyProgram 0 }

/-- The word is one of the traversal set. -/
def forWalker (x : Word) : Bool :=
  match decodeGyrix x, decodeGts x with
  | .error _, .ok _ => true
  | _, _ => false

/-- Load an instruction from outside the machine (assumption 23): context 0 of pavilion 0 with its descriptor at device address
0 and one readable, writable, executable page at virtual address 0; the word at its start; and the wave, or the walker, that
executes it in the next step. -/
def State.placeWord (s : State) (_nbits w : Nat) : State :=
  let x := BitVec.ofNat 32 w
  let mem := (((s.mem.writeLE 8 8 0x1000).writeLE 124 1 1).writeLE 0x1000 8 0x201F).writeLE 0x2000 4 x.toNat
  let pav := { s.pav 0 with ctxtab := 0, ctxcount := 1, busy := false, savedCtxs := [] }
  let core := loaderCore (s.core 0)
  let walkers := Assoc.set (core.walkers.map fun (y : Nat × Walker) => (y.1, { y.2 with waited := 0 })) 0 loaderWalker
  let core := if forWalker x then { core with walkers := walkers } else core
  { s with
    mem := mem, poisoned := dropIf (fun l => l == 128) s.poisoned, thermal := false, tickDue := false,
    pavs := Assoc.set s.pavs 0 pav, cores := Assoc.set s.cores 0 core, blocks := Assoc.set s.blocks 0 { loaderBlock with grid := s.fresh },
    waves := Assoc.set (s.waves.map fun (y : Nat × Wave) => (y.1, { y.2 with waited := 0 })) 0 loaderWave, fresh := s.fresh + 2,
    agenda := (if forWalker x then .walker 0 else .wave 0) :: s.agenda }

end Sys2Proof.Machine
end

