-- ==== Sys2Proof/Safety.lean ====
section
/-! DEFINITION. What a sound state and a safe run are, in the terms the statements use. -/

namespace Sys2Proof.Machine

/-- What the rules promise of every wave: p0 reads all ones (R53), the mode word holds no reserved code and its bits [31:24]
are zero (R57), the mask stack is at most 64 deep (R64), and `RSEED` is not zero (R83). -/
def Wave.sound (w : Wave) : Bool :=
  decide (w.preds[0] = 0xFFFFFFFF) && wmLegal w.wm && decide (w.depth ≤ 64) && decide (w.rseed ≠ 0)

/-- Memory is in its canonical form, so that equal memories are equal data. -/
def State.canonical (s : State) : Bool := s.mem.wf

/-- A run is safe: however many steps it takes, the model meets no stop of its own. -/
def State.Safe (s : State) : Prop := ∀ n, ∃ t, Sys2Proof.core.run n s = .next t

/-! ### Register files -/

/-- A P tag stands only in an odd register whose even register has an A tag (R45). -/
def pairsOk (R : Regs) : Prop := ∀ r x, rd R r = .p x → r.getLsbD 0 = true ∧ ∃ slot, rd R (evenOf r) = .a slot

/-- A result as its destination's lanes hold it: 64 bits under a 64-bit type, else the low 32. -/
def asHeld (t : ETy) (x : DWord) : DWord := if t.is64 then x else zext64 (loWord x)

/-- The registers a typed destination names. -/
def typedRegs (t : ETy) (d : Reg) : List Reg := if t.is64 then [evenOf d, oddOf d] else [d]

/-- The wave has no open log entry (and so replays none) and at least `n` rows to spare, so that writing `n` more registers
passes the budget check of R54 (256 registers can hold no more than 256 rows). -/
def Wave.roomFor (w : Wave) (n : Nat) : Prop :=
  w.log = [] ∧ w.replay = none ∧ Nat.min 256 (rowCount w.regs + n) ≤ w.gbudget.toNat

/-- The wave after an instruction that changes nothing of it: the issue point is past the word (R205). -/
def Wave.after (w : Wave) : Wave :=
  { w with pc := w.pc + 4, wait := .none, answers := [], retired := true }

/-- The wave as it stands while its instruction is checked: at its issue point, no longer waiting. -/
def Wave.atIssue (w : Wave) : Wave := { w with wait := .none, retired := false }

/-- The wave's instruction traps with a cause, lanes and an address, and has no other effect (R206). -/
def trapsAt (i : Instr) (s : State) (w : Wave) (c : Cause) (lanes : Word) (addr : DWord) : Prop :=
  exec i s = .next (s.raiseTrap s.cur w.atIssue { cause := c, lanes := lanes, addr := addr })

/-- Nothing of the machine changed but the wave that executed, which is now `w`. -/
def State.onlyWave (s : State) (w : Wave) : State := s.setWave s.cur w

/-! ### What the statements about wave instructions share -/

/-- The wave in slot `s.cur` is `w`; its registers pair as R45 says. -/
def State.runs (s : State) (w : Wave) : Prop := s.wave s.cur = some w ∧ pairsOk w.regs

/-- What a write of `f` to the lanes `act` of a typed destination leaves of a register file: those lanes get `f`, the
destination's other lanes and every lane of every other register stay (R48, R49, R52), and P tags stay beside A tags (R45). -/
def lanesWritten (R R' : Regs) (act : Word) (t : ETy) (d : Reg) (f : Nat → DWord) : Prop :=
  pairsOk R' ∧ (∀ n < 32, laneT R' t d n = if act.getLsbD n then asHeld t (f n) else laneT R t d n)
    ∧ ∀ r ∉ typedRegs t d, ∀ n < 32, lane R' r n = lane R r n

/-- `exec i s` completes and changes nothing but the registers of its wave, and those by one write. -/
def writesLanes (i : Instr) (s : State) (w : Wave) (act : Word) (t : ETy) (d : Reg) (f : Nat → DWord) : Prop :=
  ∃ R, exec i s = .next (s.onlyWave { w.after with regs := R }) ∧ lanesWritten w.regs R act t d f

/-- The same for an instruction that also leaves `RSEED` at `seed` (R83). -/
def writesRounded (i : Instr) (s : State) (w : Wave) (act : Word) (t : ETy) (d : Reg) (f : Nat → DWord) (seed : Word) : Prop :=
  ∃ R, exec i s = .next (s.onlyWave { w.after with regs := R, rseed := seed }) ∧ lanesWritten w.regs R act t d f

end Sys2Proof.Machine
end

