-- ==== Sys2Proof/Certificates/Slice0/Obligations.lean ====
section
/-! DEFINITION. The statements for the provers. The tables of `Claims` say in the spec's terms what each statement needs of an
instruction; every statement is about exec, step, the decoders or the operations that the meanings share. -/

namespace Sys2Proof.Claims

open Sys2Proof.Machine

/-! ### Integer instructions -/

/-- What an integer instruction computes: its destination, the fields that its element type widens, whether `WM.SAT` acts on
it, and the exact result of a lane. -/
structure IntRow where
  dest : Reg
  fields : List Reg
  sat : Bool
  exact : Nat → Int

/-- R100 to R103, by instruction, over the integers `v r n` that lane n of register r holds. -/
def intRow (w : Wave) (t : ETy) (i : Instr) : Option IntRow :=
  let v (r : Reg) (n : Nat) : Int := t.value (laneT w.regs t r n)
  let bits (x : Int) : Nat := (BitVec.ofInt 64 x).toNat % 2 ^ t.width
  let count (b : Reg) (n : Nat) : Nat := (lane w.regs b n).toNat % (if t.is64 then 64 else 32)
  let immOk (c : BitVec 6) : Bool := !c.getLsbD 5 || decide (32 < t.width)
  match i with
  | .add d a b => some ⟨d, [d, a, b], true, fun n => v a n + v b n⟩
  | .sub d a b => some ⟨d, [d, a, b], true, fun n => v a n - v b n⟩
  | .mul d a b => some ⟨d, [d, a, b], true, fun n => v a n * v b n⟩
  | .mulh d a b => some ⟨d, [d, a, b], false, fun n => v a n * v b n / 2 ^ t.width⟩
  | .mad d a b => some ⟨d, [d, a, b], true, fun n => v d n + v a n * v b n⟩
  | .min d a b => some ⟨d, [d, a, b], false, fun n => if v b n < v a n then v b n else v a n⟩
  | .max d a b => some ⟨d, [d, a, b], false, fun n => if v a n < v b n then v b n else v a n⟩
  | .abs d a => some ⟨d, [d, a], true, fun n => if v a n < 0 then -v a n else v a n⟩
  | .neg d a => some ⟨d, [d, a], true, fun n => -v a n⟩
  | .and d a b => some ⟨d, [d, a, b], false, fun n => (BitVec.ofInt 64 (v a n) &&& BitVec.ofInt 64 (v b n)).toInt⟩
  | .or d a b => some ⟨d, [d, a, b], false, fun n => (BitVec.ofInt 64 (v a n) ||| BitVec.ofInt 64 (v b n)).toInt⟩
  | .xor d a b => some ⟨d, [d, a, b], false, fun n => (BitVec.ofInt 64 (v a n) ^^^ BitVec.ofInt 64 (v b n)).toInt⟩
  | .not d a => some ⟨d, [d, a], false, fun n => -1 - v a n⟩
  | .shl d a b => some ⟨d, [d, a], true, fun n => v a n * 2 ^ count b n⟩
  | .shr d a b => some ⟨d, [d, a], false, fun n => v a n / 2 ^ count b n⟩
  | .clz d a => some ⟨d, [d, a], false, fun n => leadingZeros (bits (v a n)) t.width⟩
  | .popc d a => some ⟨d, [d, a], false, fun n => oneBits (bits (v a n)) t.width⟩
  | .addi d a imm => some ⟨d, [d, a], true, fun n => v a n + imm.toInt⟩
  | .shli d a c => if immOk c then some ⟨d, [d, a], true, fun n => v a n * 2 ^ c.toNat⟩ else none
  | .shri d a c => if immOk c then some ⟨d, [d, a], false, fun n => v a n / 2 ^ c.toNat⟩ else none
  | .andi d a imm => some ⟨d, [d, a], false, fun n => (BitVec.ofInt 64 (v a n) &&& BitVec.ofInt 64 imm.toNat).toInt⟩
  | .muli d a imm => some ⟨d, [d, a], true, fun n => v a n * imm.toInt⟩
  | _ => none

/-! ### Lane-wise instructions in general -/

/-- What an instruction writes: the lanes, the type that its destination has, the destination, and the value of each lane. -/
structure LaneRow where
  lanes : Word
  ty : ETy
  dest : Reg
  value : Nat → DWord

/-- A row where the type is accepted and widens its fields legally (R76, R81). -/
def typed (ok : ETy → Bool) (t : ETy) (fields : List Reg) (r : LaneRow) : Option LaneRow :=
  if ok t && fields.all (widened t) then some r else none

/-- R93, R95 to R98: mode and move instructions that write a register. -/
def moveRow (s : State) (w : Wave) (i : Instr) : Option LaneRow :=
  let act := activeMask w
  let t := wmET w.wm
  match i with
  | .getsr d n =>
    let wide := sregWide n.toNat
    if (srAccess n.toNat = .privRw ∧ !w.wsPriv) ∨ srAccess n.toNat = .absent ∨ (wide ∧ d.getLsbD 0) then none
    else some ⟨act, if wide then .n64 else .n32, d, fun _ => s.readSr s.cur w n.toNat⟩
  | .ldi d imm => some ⟨act, .n32, d, fun _ => zext64 (imm.signExtend 32)⟩
  | .ldih d imm => some ⟨act, .n32, d, fun n => zext64 (imm ++ (lane w.regs d n).extractLsb' 0 16)⟩
  | .pcrel d imm => some ⟨act, .n64, pairReg d, fun _ => w.pc + imm.signExtend 64 * 4⟩
  | .cbase d imm => some ⟨act, .n64, pairReg d, fun _ => s.readSr s.cur w 0x030 + imm.zeroExtend 64 * 64⟩
  | .mov d a => typed setAnyw t [d, a] ⟨act, t, d, laneT w.regs t a⟩
  | .sel d a b => typed setAnyw t [d, a, b] ⟨w.exec, t, d, fun n =>
      if (guardMask w).getLsbD n then laneT w.regs t a n else laneT w.regs t b n⟩
  | _ => none

/-- R104, R106 and R108: bit fields and address arithmetic, under n32 and s32. -/
def addressRow (w : Wave) (i : Instr) : Option LaneRow :=
  let act := activeMask w
  let t := wmET w.wm
  let index (b : Reg) (n : Nat) : DWord := if t = .s32 then sext64 (lane w.regs b n) else zext64 (lane w.regs b n)
  let pair (a : Pair) (n : Nat) : Int := if t = .s32 then (pairLane w.regs a n).toInt else (pairLane w.regs a n).toNat
  let sum (d a : Pair) (b : Reg) (m : DWord) : LaneRow :=
    ⟨act, .n64, pairReg d, fun n => pairLane w.regs a n + index b n * m⟩
  if setInt32 t then
    match i with
    | .bfe d a b => some ⟨act, .n32, d, fun n => zext64 (bfeValue (t == .s32) (lane w.regs a n) (lane w.regs b n))⟩
    | .bfi d a b => some ⟨act, .n32, d, fun n => zext64 (bfiValue (lane w.regs d n) (lane w.regs a n) (lane w.regs b n))⟩
    | .adda d a b => some (sum d a b 1)
    | .lea2 d a b => some (sum d a b 2)
    | .lea4 d a b => some (sum d a b 4)
    | .lea8 d a b => some (sum d a b 8)
    | .suba d a b => some ⟨act, .n32, d, fun n => t.fit (wmSAT w.wm) (pair a n - pair b n)⟩
    | _ => none
  else none

/-- The value of lane `j` of an operand, extended as its type says (R86). -/
def element (w : Wave) (a : Reg) (j : Nat) : DWord := (wmET w.wm).wrap ((wmET w.wm).value (laneT w.regs (wmET w.wm) a j))

/-- R111 and R113 to R116, R119: lane and cross-lane instructions that do not add. -/
def crossRow (w : Wave) (i : Instr) : Option LaneRow :=
  let act := activeMask w
  let t := wmET w.wm
  let src := lanesOf act
  let dst := (lanesOf w.exec).take src.length
  match i with
  | .ballot d a => some ⟨if act = 0 then 0 else w.exec, .n32, d, fun _ => zext64 (predBits w a &&& act)⟩
  | .shape d a => some ⟨act, .n32, d, fun _ => match rd w.regs a with | .u _ => 0 | .g _ => 2 | _ => 1⟩
  | .expand d a => typed setAnyw t [d, a] ⟨act, t, d, element w a⟩
  | .laneid d => some ⟨act, .n32, d, fun n => BitVec.ofNat 64 n⟩
  | .readlane d a b => typed setAnyw t [d, a] ⟨act, t, d, fun _ => element w a ((lane w.regs b (lowestLane act)).toNat % 32)⟩
  | .shfl d a b => typed setAnyw t [d, a] ⟨act, t, d, fun n => element w a ((lane w.regs b n).toNat % 32)⟩
  | .shflup d a k => typed setAnyw t [d, a] ⟨act, t, d, fun n => element w a (if k.toNat ≤ n then n - k.toNat else n)⟩
  | .shfldn d a k => typed setAnyw t [d, a] ⟨act, t, d, fun n => element w a (if n + k.toNat ≤ 31 then n + k.toNat else n)⟩
  | .shflx d a k => typed setAnyw t [d, a] ⟨act, t, d, fun n => element w a (n ^^^ k.toNat)⟩
  | .vconflict d a => typed setAnyw t [d, a] ⟨act, t, d, fun n => zext64 (maskOf fun j =>
      decide (j < n) && act.getLsbD j && t.pattern (laneT w.regs t a j) == t.pattern (laneT w.regs t a n))⟩
  | .compact d a => typed setAnyw t [d, a] ⟨maskOf fun n => dst.contains n, t, d, fun n =>
      element w a ((Assoc.find (dst.zip src) n).getD n)⟩
  | _ => none

/-- R117 and R118: the running sums, and the reductions. A reduction reaches every lane of `EXEC`, and none where no lane is
active. -/
def foldRow (w : Wave) (i : Instr) : Option LaneRow :=
  let act := activeMask w
  let t := wmET w.wm
  let all (l : List (Nat × DWord)) (d : Reg) : LaneRow :=
    ⟨if act = 0 then 0 else w.exec, t, d, fun _ => (l.getLast?.map fun x => x.2).getD 0⟩
  match i with
  | .scanadd d a => typed setNum t [d, a] ⟨act, t, d, fun n => (Assoc.find (w.sums t a) n).getD 0⟩
  | .redadd d a => typed setNum t [d, a] (all (w.sums t a) d)
  | .redmin d a => typed setNum t [d, a] (all (w.extremes false t a) d)
  | .redmax d a => typed setNum t [d, a] (all (w.extremes true t a) d)
  | _ => none

/-- `RSEED` after a fold: under SR a float type steps it once per active lane, in a running sum and in every reduction (R117, R118). -/
def foldSeed (w : Wave) (i : Instr) : Word :=
  match i with
  | .scanadd _ _ | .redadd _ _ | .redmin _ _ | .redmax _ _ =>
    if !(wmET w.wm).isInt ∧ wmRM w.wm = 5 then lfsrSteps (lanesOf (activeMask w)).length w.rseed else w.rseed
  | _ => w.rseed

/-! ### Float instructions -/

/-- What a float instruction writes: its destination and type, the value of a lane from its 16 random bits, and whether it
rounds by `WM.RM`. -/
structure FloatRow where
  ty : ETy
  dest : Reg
  value : Nat → Nat → DWord
  rounds : Bool

/-- The same over a condition on the type. -/
def typedF (ok : ETy → Bool) (t : ETy) (fields : List Reg) (r : FloatRow) : Option FloatRow :=
  if ok t && fields.all (widened t) then some r else none

/-- R122 to R130: one rounding of the exact result, or a result that takes none. -/
def floatRow (w : Wave) (i : Instr) : Option FloatRow :=
  let t := wmET w.wm
  let st := wmST w.wm
  let rm := wmRM w.wm
  let v (r : Reg) (n : Nat) : FVal := t.fmt.decode (laneT w.regs t r n).toNat
  let once (d : Reg) (x : Nat → Exact) : FloatRow := ⟨t, d, fun rand n => BitVec.ofNat 64 (t.fmt.round rm rand (x n)), true⟩
  let plain (d : Reg) (x : Nat → Nat) : FloatRow := ⟨t, d, fun _ n => BitVec.ofNat 64 (x n), false⟩
  let half (r : Reg) (n k : Nat) : FVal := st.fmt.decode (halfOf (lane w.regs r n) k)
  match i with
  | .fadd d a b => typedF setFlt t [d, a, b] (once d fun n => sumF rm [v a n, v b n])
  | .fsub d a b => typedF setFlt t [d, a, b] (once d fun n => sumF rm [v a n, negF (v b n)])
  | .fmul d a b => typedF setFlt t [d, a, b] (once d fun n => (mulF (v a n) (v b n)).exact)
  | .fma d a b => typedF setFlt t [d, a, b] (once d fun n => sumF rm [mulF (v a n) (v b n), v d n])
  | .fdiv d a b => typedF setFlt t [d, a, b] (once d fun n => divF (v a n) (v b n))
  | .frcp d a => typedF setFlt t [d, a] (once d fun n => rcpF (v a n))
  | .frsq d a => typedF setFlt t [d, a] (once d fun n => rsqF (v a n))
  | .fsqrt d a => typedF setFlt t [d, a] (once d fun n => sqrtF (v a n))
  | .frnd d a => typedF setFlt t [d, a]
      ⟨t, d, fun rand n => BitVec.ofNat 64 (t.fmt.round 0 0 (integralF rm rand (v a n))), true⟩
  | .fmin d a b => typedF setFlt t [d, a, b] (plain d fun n => (extreme false t (laneT w.regs t a n) (laneT w.regs t b n)).toNat)
  | .fmax d a b => typedF setFlt t [d, a, b] (plain d fun n => (extreme true t (laneT w.regs t a n) (laneT w.regs t b n)).toNat)
  | .fabs d a => typedF setFlt t [d, a] (plain d fun n => withSign (fun _ => false) t (laneT w.regs t a n))
  | .fneg d a => typedF setFlt t [d, a] (plain d fun n => withSign (fun x => !x) t (laneT w.regs t a n))
  | .fexp2 d a => typedF setTxt t [d, a] (plain d fun n => t.fmt.round 0 0 (exp2F (v a n)))
  | .flog2 d a => typedF setTxt t [d, a] (plain d fun n => t.fmt.round 0 0 (log2F (v a n)))
  | .fsinpi d a => typedF setTxt t [d, a] (plain d fun n => t.fmt.round 0 0 (sinpiF (v a n)))
  | .fcospi d a => typedF setTxt t [d, a] (plain d fun n => t.fmt.round 0 0 (cospiF (v a n)))
  | .fclass d a => typedF setFlt t [d, a] (plain d fun n => 2 ^ classBit t (t.pattern (laneT w.regs t a n)))
  | .fdot2 d a b =>
    if t = .f32 ∧ (st = .f16 ∨ st = .bf16) then
      some (once d fun n => sumF rm [v d n, mulF (half a n 0) (half b n 0), mulF (half a n 1) (half b n 1)])
    else none
  | .cvt d a =>
    if cvtAccepts st t ∧ widened t d ∧ widened st a then
      some ⟨t, d, fun rand n => convert st t w.wm rand (laneT w.regs st a n), anyFloat st || anyFloat t⟩
    else none
  | .pack d a b =>
    if t.width = 16 then some ⟨.n32, d, fun _ n =>
      zext64 ((lane w.regs b n).extractLsb' 0 16 ++ (lane w.regs a n).extractLsb' 0 16), false⟩
    else if t.width = 8 then some ⟨.n32, d, fun _ n =>
      zext64 ((lane w.regs b n).extractLsb' 0 8 ++ (lane w.regs a n).extractLsb' 0 8 ++ (lane w.regs d n).extractLsb' 16 16), false⟩
    else none
  | .unpk d a sel =>
    if (t.width = 16 ∧ sel.toNat < 2) ∨ t.width = 8 then some ⟨.n32, d, fun _ n =>
      t.wrap (t.value (zext64 (lane w.regs a n >>> (sel.toNat * t.width)))), false⟩
    else none
  | _ => none

/-! ### Storage shapes -/

/-- What an instruction of the ALU writes: the lanes, the values, `RSEED` afterwards, and whether it rounds under SR. -/
def writeRow (s : State) (w : Wave) (i : Instr) : Option (LaneRow × Word × Bool) :=
  let t := wmET w.wm
  let act := activeMask w
  match floatRow w i with
  | some x =>
    if x.rounds && wmRM w.wm == 5 then
      some (⟨act, x.ty, x.dest, fun n => x.value (randomBits w.rseed act n) n⟩, seedAfter w.rseed act, true)
    else some (⟨act, x.ty, x.dest, x.value 0⟩, w.rseed, false)
  | none =>
    match (if setInt t then intRow w t i else none) with
    | some x =>
      if x.fields.all (widened t) then
        some (⟨act, t, x.dest, fun n => t.fit (x.sat && wmSAT w.wm) (x.exact n)⟩, w.rseed, false) else none
    | none => (moveRow s w i <|> addressRow w i <|> crossRow w i <|> foldRow w i).map fun x => (x, foldSeed w i, false)

/-- U of operands that are all U, else G. -/
def flatShape (l : List Shape) : Shape := if l.all (· == .u) then .u else .g

/-- A of operands of which none is G and not all are U. -/
def affineShape (l : List Shape) : Shape := if l.contains .g then .g else if l.all (· == .u) then .u else .a

/-- The tables of R99, R104, R105, R107, R108, R120 and R131, with R88: the shape of a full write before R51. -/
def tableShape (w : Wave) (i : Instr) : Shape :=
  let t := wmET w.wm
  let T (r : Reg) : Shape := shapeT w.regs t r
  let W (r : Reg) : Shape := shape32 w.regs r
  let P (k : Pair) : Shape := shape64 w.regs k
  let kept (x : Shape) : Shape := if x = .a ∧ ¬ (setInt32 t = true ∧ wmSAT w.wm = false) then .g else x
  let copied (x : Shape) : Shape := if x = .a ∧ t.width < 32 then .g else x
  let product (a b : Reg) : Shape := if T a = .a ∧ T b = .a then .g else affineShape [T a, T b]
  let index (b : Reg) : Shape :=
    let e := t.value (zext64 (lane w.regs b 0)) + 31 * (lane w.regs b 1 - lane w.regs b 0).toInt
    if W b = .a ∧ ¬ (t.least ≤ e ∧ e ≤ t.most) then .g else W b
  match i with
  | .getsr _ _ | .ldi _ _ | .pcrel _ _ | .cbase _ _ => .u
  | .ldih d _ => flatShape [W d]
  | .mov _ a => T a
  | .sel _ a b => if wmGP w.wm = 0 then T (if wmGN w.wm then b else a) else .g
  | .bfe _ a b => flatShape [W a, W b]
  | .bfi d a b => flatShape [W d, W a, W b]
  | .adda _ a b | .lea2 _ a b | .lea4 _ a b | .lea8 _ a b => affineShape [P a, index b]
  | .suba _ a b => kept (affineShape [P a, P b])
  | .add _ a b | .sub _ a b => kept (affineShape [T a, T b])
  | .addi _ a _ | .muli _ a _ | .shli _ a _ | .neg _ a | .not _ a => kept (T a)
  | .mul _ a b => kept (product a b)
  | .shl _ a b => kept (if W b = .u then T a else .g)
  | .mad d a b => kept (match product a b with
    | .u => flatShape [T d]
    | .a => if T d = .g then .g else .a
    | .g => .g)
  | .mulh _ a b | .min _ a b | .max _ a b | .and _ a b | .or _ a b | .xor _ a b => flatShape [T a, T b]
  | .shr _ a b => flatShape [T a, W b]
  | .abs _ a | .clz _ a | .popc _ a | .shri _ a _ | .andi _ a _ => flatShape [T a]
  | .ballot _ _ | .shape _ _ | .readlane _ _ _ | .redadd _ _ | .redmin _ _ | .redmax _ _ => .u
  | .laneid _ => .a
  | .shfl _ a b => flatShape [T a, W b]
  | .shflup _ a k | .shfldn _ a k | .shflx _ a k => if k = 0 then copied (T a) else flatShape [T a]
  | .scanadd _ a => if T a = .u ∧ setInt32 t = true ∧ wmSAT w.wm = false then .a else .g
  | .compact _ a => copied (T a)
  | .fadd _ a b | .fsub _ a b | .fmul _ a b | .fdiv _ a b | .fmin _ a b | .fmax _ a b => flatShape [T a, T b]
  | .fma d a b => flatShape [T d, T a, T b]
  | .frcp _ a | .frsq _ a | .fsqrt _ a | .frnd _ a | .fabs _ a | .fneg _ a | .fexp2 _ a | .flog2 _ a | .fsinpi _ a
  | .fcospi _ a | .fclass _ a => flatShape [T a]
  | .fdot2 d a b => flatShape [W d, W a, W b]
  | .cvt _ a => flatShape [shapeT w.regs (wmST w.wm) a]
  | .pack d a b => if t.width = 16 then flatShape [W a, W b] else flatShape [W d, W a, W b]
  | .unpk _ a _ => flatShape [W a]
  | _ => .g

/-- The shape that a write leaves its destination in (R49 to R51, R131): `sh` is that of the tables. -/
def shapeLeft (x : LaneRow) (sr : Bool) (sh : Shape) : Shape :=
  let f (n : Nat) : DWord := asHeld x.ty (x.value n)
  let stride : DWord := if x.ty.is64 then f 1 - f 0 else sext64 (loWord (f 1 - f 0))
  if x.lanes ≠ 0xFFFFFFFF then .g
  else match sh with
    | .u => if sr && (List.range 32).any (fun n => f n != f 0) then .g else .u
    | .a => if stride = 0 then .u else if sext64 (loWord stride) = stride then .a else .g
    | .g => .g

/-- The tag of register `r` after a write that leaves its destination in shape `k`: a 32-bit write to one register of an affine
pair separates the pair, and every other register keeps its tag (R45, R46, R52). -/
def tagAfter (R : Regs) (x : LaneRow) (k : Shape) (r : Reg) : Nat :=
  let here : Nat := match k with
    | .u => 0
    | .a => 1
    | .g => 2
  let d := x.dest
  if x.lanes = 0 then (rd R r).tag
  else if x.ty.is64 then
    if r = evenOf d then here else if r = oddOf d then (if k = .a then 3 else here) else (rd R r).tag
  else if r = d then here
  else if evenOf r = evenOf d ∧ (rd R (evenOf d)).tag = 1 ∧ (rd R (oddOf d)).tag = 3 then (if d.getLsbD 0 then 1 else 2)
  else (rd R r).tag

/-- Rows that the wave holds after a write (R54). -/
def rowsAfter (R : Regs) (x : LaneRow) (k : Shape) : Nat :=
  (List.range 256).countP fun r => tagAfter R x k (BitVec.ofNat 8 r) == 2

/-- The lanes, the registers and the shape for a full write of the instructions beyond the ALU that write registers: the shape
where operands decide it, and none for `LDZ`, whose values do (R50, R145, R146, R160, R161, R167, R274, R275, R290, R299, R361,
R383, R386, R387; assumption 54). -/
def otherRow (s : State) (w : Wave) (i : Instr) : Option (Word × List Reg × Option Shape) :=
  let t := wmET w.wm
  let act := activeMask w
  let quad (d : Reg) : List Reg := [d, regAt d 1, regAt d 2, regAt d 3]
  let loaded (d : Reg) (l : List Shape) : Option (Word × List Reg × Option Shape) :=
    some (act, if t = .b128 then quad d else typedRegs t d, some (flatShape l))
  match i with
  | .ld d a _ => loaded d [shape64 w.regs a]
  | .ldx d a b => loaded d [shape64 w.regs a, shape32 w.regs b]
  | .lds d a _ => loaded d [shape32 w.regs a]
  | .ldz d _ _ => some (act, [d], none)
  | .aadd d _ _ | .amin d _ _ | .amax d _ _ | .aand d _ _ | .aor d _ _ | .axor d _ _ | .axchg d _ _ | .acas d _ _ =>
    some (act, typedRegs t d, some .g)
  | .arrive d _ | .arrivetx d _ _ => some (w.exec, [d], some .u)
  | .enq d _ _ => some (act, [d], some .g)
  | .deq d _ => some (w.exec, (List.range 16).map fun n => regAt d n, some .u)
  | .cpygo d _ => some (w.exec, [d], some .u)
  | .rgather d _ b => some (act, typedRegs t d, some (flatShape [shape32 w.regs b]))
  | .tlaunch d _ _ => some (w.exec, [d], some .u)
  | .cqpop d =>
    let held : Nat := (((s.block w.block).bind fun x => x.half (coreOf s.cur)).map fun h => h.sluiceTail - h.sluiceHead).getD 0
    some (maskOf fun n => decide (n < held), quad (pairReg d), some .g)
  | .mxfence d => some (w.exec, [d], some .u)
  | .acld d a _ => some (act, [d], some (flatShape [shape32 w.regs a]))
  | .leafgather d _ _ => some (act, [d], some .g)
  | .sgnproj d a _ => some (act, [d], some (flatShape [shape64 w.regs a]))
  | .ldlod d _ b => some (act, [pairReg d, regAt (pairReg d) 1], some (flatShape [shape32 w.regs b]))
  | .sample d _ b => some (act, [d], some (flatShape ((quad b).map fun r => shape32 w.regs r)))
  | .visrd d a => some (act, [d], some (flatShape [shape32 w.regs a]))
  | _ => none

/-! ### Predicates -/

/-- R109 and R110: the predicate that an instruction writes, and the bit of each active lane. -/
def predRow (w : Wave) (i : Instr) : Option (Pred × (Nat → Bool)) :=
  let t := wmET w.wm
  let p (q : Pred) (n : Nat) : Bool := (predBits w q).getLsbD n
  let rel (r : Rel) (q : Pred) (a b : Reg) : Option (Pred × (Nat → Bool)) :=
    if (setInt t || setFlt t) && [a, b].all (widened t) then
      some (q, fun n => r.test t (laneT w.regs t a n) (laneT w.regs t b n)) else none
  match i with
  | .cmpeq q a b => rel .eq q a b
  | .cmpne q a b => rel .ne q a b
  | .cmplt q a b => rel .lt q a b
  | .cmple q a b => rel .le q a b
  | .cmpgt q a b => rel .gt q a b
  | .cmpge q a b => rel .ge q a b
  | .cmpun q a b => if setFlt t then rel .un q a b else none
  | .pand q a b => some (q, fun n => p a n && p b n)
  | .por q a b => some (q, fun n => p a n || p b n)
  | .pxor q a b => some (q, fun n => xor (p a n) (p b n))
  | .pnot q a => some (q, fun n => !p a n)
  | .pfrom q a => some (q, fun n => (lane w.regs a n).getLsbD n)
  | _ => none

/-! ### Special registers -/

/-- The value `SETSR` reads: the lowest active lane of its source, a pair for a 64-bit register (R94). -/
def srValue (w : Wave) (a : Reg) (n : Nat) : DWord :=
  let j := lowestLane (activeMask w)
  if sregWide n then pairLane w.regs (regPair a) j else zext64 (lane w.regs a j)

/-- Registers that `SETSR` may write: any code may, or privileged code alone (R59, R60). -/
def srWritable (n : Nat) (priv : Bool) : Bool :=
  match srAccess n with
  | .rw => true
  | .privRw => priv
  | .status => priv
  | _ => false

/-! ### Control transfer -/

/-- What R133 gives a control transfer: where it goes and with which trace packet (R439), where it goes at all, and `LR`
afterwards. Nothing where a computed target is misaligned (R71). -/
def controlRow (w : Wave) (i : Instr) : Option (Option (DWord × Nat) × DWord) :=
  let target (off : Off24) : DWord := w.pc + sext64 off * 4
  let j := lowestLane w.exec
  let g := w.exec &&& guardMask w
  let aligned (t : DWord) (r : Option (DWord × Nat) × DWord) : Option (Option (DWord × Nat) × DWord) :=
    if t.extractLsb' 0 2 = 0 then some r else none
  match i with
  | .bra off => some (some (target off, 0), w.lr)
  | .brc off => some (if g ≠ 0 then some (target off, 0) else none, w.lr)
  | .brca off => some (if w.exec ≠ 0 ∧ g = w.exec then some (target off, 0) else none, w.lr)
  | .call off => some (some (target off, 1), w.pc + 4)
  | .callr a => aligned (pairLane w.regs a j) (some (pairLane w.regs a j, 1), w.pc + 4)
  | .jmpr a => aligned (pairLane w.regs a j) (some (pairLane w.regs a j, 0), w.lr)
  | .ret => aligned w.lr (some (w.lr, 2), w.lr)
  | _ => none

/-- The wave went on with `w'`: to a target, with its trace packet, or to the next word. -/
def goesTo (i : Instr) (s : State) (w w' : Wave) (target : Option (DWord × Nat)) : Prop :=
  exec i s = .next (match target with
    | none => s.onlyWave w'
    | some (t, kind) => (s.trace s.cur (s.whoOf s.cur w).pav (s.whoOf s.cur w).ctx t kind).setWave s.cur { w' with pc := t })

/-! ### Divergence, the mask stack in hardware -/

/-- An entry of the mask stack (R64). -/
def entry (resume pending : Word) : DWord := pending ++ resume

/-- What R135 gives a divergence instruction whose entries are all in hardware: `EXEC`, the entries newest first, the kind
vector, and the jump that is taken. `masks` are the entries before, `loops` the kinds by depth. -/
def divergeRow (w : Wave) (i : Instr) : Option (Word × List DWord × BitVec 64 × Option DWord) :=
  let g := w.exec &&& guardMask w
  let target (off : Off24) : DWord := w.pc + sext64 off * 4
  let jump (e : Word) (off : Off24) : Option DWord := if e = 0 then some (target off) else none
  let here : BitVec 64 := 1#64 <<< w.depth
  let top : Bool := w.kinds.getLsbD (w.depth - 1)
  let leave (cont : Bool) (off : Off24) : Option (Word × List DWord × BitVec 64 × Option DWord) :=
    let l := w.innerLoop
    if l = 0 then none
    else
      let e := w.exec &&& ~~~g
      some (e, w.masks.mapIdx fun k x =>
          let depth := w.depth - k
          if l < depth then entry (loWord x &&& ~~~g) (hiWord x &&& ~~~g)
          else if depth = l ∧ cont then entry (loWord x) (hiWord x ||| g) else x,
        w.kinds, if e = 0 ∧ l = w.depth then some (target off) else none)
  match i, w.masks with
  | .ifLanes off, m =>
    if m.length < 16 then some (g, entry w.exec (w.exec &&& ~~~g) :: m, w.kinds &&& ~~~here, jump g off) else none
  | .loopLanes off, m => if m.length < 16 then some (g, entry w.exec 0 :: m, w.kinds ||| here, jump g off) else none
  | .elseLanes off, x :: m => if !top then some (hiWord x, entry (loWord x) 0 :: m, w.kinds, jump (hiWord x) off) else none
  | .endIf, x :: m => if !top then some (loWord x, m, w.kinds, none) else none
  | .breakLanes off, _ => leave false off
  | .contLanes off, _ => leave true off
  | .endLoop off, x :: m =>
    if !top then none
    else if w.exec ||| hiWord x ≠ 0 then some (w.exec ||| hiWord x, entry (loWord x) 0 :: m, w.kinds, some (target off))
    else some (loWord x, m, w.kinds, none)
  | _, _ => none

/-! ### Traps -/

/-- The context of the wave in slot `k` takes traps of cause `c` in its handler: no other row of R208 decides, and its descriptor
is not poisoned (R429). -/
def handles (s : State) (k : Nat) (w : Wave) (c : Cause) : Prop :=
  let who := s.whoOf k w
  let flags := s.ctxField who.pav who.ctx 124 1
  c ≠ .poison ∧ s.descPoison who.pav who.ctx = none
    ∧ ((c = .breakpoint ∨ c = .step ∨ c = .watchpoint) → s.attached who.core who.pav who.ctx = false)
    ∧ flags / 8 % 2 = 0 ∧ w.handler = none ∧ s.ctxField who.pav who.ctx 120 4 / 2 ^ c.code % 2 = 1

/-- The wave in its handler after trap `t` of the instruction at `w.pc`: the table of R209. -/
def inHandler (s : State) (k : Nat) (w h : Wave) (t : TrapInfo) : Prop :=
  let who := s.whoOf k w
  let area := s.saveArea who.pav who.ctx k
  h.pc = BitVec.ofNat 64 (s.ctxField who.pav who.ctx 112 8)
    ∧ rd h.regs 0 = .u (BitVec.ofNat 32 area) ∧ rd h.regs 1 = .u (BitVec.ofNat 32 (area / 2 ^ 32))
    ∧ rd h.regs 2 = .u (BitVec.ofNat 32 t.cause.code) ∧ (∀ r : Reg, 3 ≤ r.toNat → rd h.regs r = .u 0)
    ∧ (∀ p : Pred, p ≠ 0 → predBits h p = 0) ∧ h.exec = 0xFFFFFFFF ∧ h.depth = 0 ∧ h.wm = 0 ∧ h.lr = 0
    ∧ h.fp = BitVec.ofNat 64 (area + 0x9000) ∧ h.gbudget = w.gbudget ∧ h.gused = 0 ∧ h.rseed = w.rseed
    ∧ h.wsCause = BitVec.ofNat 8 t.cause.code ∧ h.wsPast = 0 ∧ h.logOpen = w.logOpen
    ∧ h.wsPriv = decide (s.ctxField who.pav who.ctx 124 1 / 4 % 2 = 1) ∧ h.handler.isSome
    ∧ h.trapCause = BitVec.ofNat 8 t.cause.code ∧ h.trapPc = w.pc ∧ h.trapLanes = t.lanes ∧ h.trapAddr = t.addr

/-- What `RTE` reads of the save area: header, slots and tags, rows, retained rows with the mask stack, shadow sets (R214). -/
structure SavedImage where
  head : List Byte
  mid : List Byte
  rows : List Byte
  last : List Byte
  shadow : List Byte

/-- A wave's agent reads `bs` at an offset of an area (R209, R217). -/
def areaReads (s : State) (who : Who) (area off n : Nat) (bs : List Byte) : Prop :=
  if n = 0 then bs = []
  else ∃ l, s.resolve who .read false (area + off) n = .ok l
    ∧ (∀ x ∈ l, x.partner = false ∧ s.spanPoisoned x = false) ∧ bs = s.loadSpans who.uid l

/-- Everything that a restore reads of an area, for a wave with the mask depth and log of `saved`. -/
def imageReads (s : State) (who : Who) (area : Nat) (saved : SavedWave) (im : SavedImage) : Prop :=
  let rows := fieldOf im.head 48 4
  areaReads s who area 0 108 im.head ∧ areaReads s who area 256 2112 im.mid ∧ areaReads s who area 2368 (128 * rows) im.rows
    ∧ areaReads s who area (2368 + 128 * (rows + fieldOf im.head 30 1 / 16 % 16))
        (128 * (retainedRows saved.log).length + 8 * Nat.min saved.depth 16) im.last
    ∧ areaReads s who area 0x8C00 256 im.shadow

/-- The rules of R217 on an image that a wave with retained rows restores from. -/
def imageLegal (im : SavedImage) (gbudget retained : Nat) : Prop :=
  fieldOf im.head 48 4 + retained ≤ gbudget
    ∧ ((List.range 256).filter fun r => imageTag im.mid r == 2).length = fieldOf im.head 48 4
    ∧ (∀ r < 256, imageTag im.mid r = 3 → r % 2 = 1 ∧ imageTag im.mid (r - 1) = 1)
    ∧ wmLegal (BitVec.ofNat 32 (fieldOf im.head 36 4)) = true

/-- Register `r` of an image, by its tag: the rows stand in register order (R214). -/
def imageReg (im : SavedImage) (r : Nat) : VReg :=
  let slot := BitVec.ofNat 64 (fieldOf im.mid (8 * r) 8)
  let row := ((List.range r).filter fun j => imageTag im.mid j == 2).length
  match imageTag im.mid r with
  | 0 => .u (loWord slot)
  | 1 => .a slot
  | 2 => .g (rowOf fun i => BitVec.ofNat 32 (fieldOf im.rows (128 * row + 4 * i) 4))
  | _ => .p (loWord slot)

/-- The wave `w` restored as `w'` from an image, with the status it was saved with (R215, R217). -/
def restoredAs (w w' : Wave) (saved : SavedWave) (im : SavedImage) : Prop :=
  let depth := Nat.min saved.depth 16
  let flags := fieldOf im.head 30 1
  let word (off : Nat) : Word := BitVec.ofNat 32 (fieldOf im.head off 4)
  w' = { w with
      regs := w'.regs, log := w'.log,
      preds := #v[0xFFFFFFFF, word 80, word 84, word 88, word 92, word 96, word 100, word 104],
      exec := word 32, wm := word 36, rseed := if word 52 = 0 then 1 else word 52,
      lr := BitVec.ofNat 64 (fieldOf im.head 56 8), fp := BitVec.ofNat 64 (fieldOf im.head 64 8),
      pc := BitVec.ofNat 64 (fieldOf im.head 0 8), depth := saved.depth, kinds := saved.kinds,
      masks := ((List.range depth).map fun i =>
        BitVec.ofNat 64 (fieldOf im.last (128 * (retainedRows saved.log).length + 8 * i) 8)).reverse,
      shadow := Vector.ofFn fun i => BitVec.ofNat 64 (fieldOf im.shadow (8 * i.val) 8),
      wsStep := saved.step, wsPriv := saved.priv, handler := none, trapLog := 0, owed := [], wait := .none,
      heldTrap := none, answers := [], badRows := [] }
    ∧ (∀ r : Reg, rd w'.regs r = imageReg im r.toNat)
    ∧ (w'.log.map fun e => (e.pc, e.word, e.state)) =
        ((saved.log.zipIdx.filter fun x => decide (x.2 < flags / 16 % 16) && flags / 2 ^ x.2 % 2 == 1).map fun x =>
          (x.1.pc, x.1.word, LogState.resolved))

/-! ### Memory -/

/-- A load or store: whether it loads, its data register, and where it accesses (R151, R153). -/
def accessRow (w : Wave) : Instr → Option (Bool × Reg × Where)
  | .ld d a imm => some (true, d, w.atImm a imm)
  | .ldx d a b => some (true, d, w.atReg a b)
  | .lds d a imm => some (true, d, w.atScratch a imm)
  | .st d a imm => some (false, d, w.atImm a imm)
  | .stx d a b => some (false, d, w.atReg a b)
  | .sts d a imm => some (false, d, w.atScratch a imm)
  | _ => none

/-- Nothing stops the accesses of a wave instruction: they pass the checks of R152, none reaches the partner card or a halted
core, and none reads a poisoned byte. -/
def clear (s : State) (kind : AccessKind) (l : List LaneAccess) : Prop :=
  ∀ a ∈ l, ∃ sp, a.spans = .ok sp ∧ ∀ x ∈ sp, x.partner = false ∧ s.peerHalted (coreOf s.cur) x = false
    ∧ (kind ≠ .write → s.spanPoisoned x = false)

/-- Where the bytes of lane `n` lie. -/
def spansOf (l : List LaneAccess) (n : Nat) : List Span := ((laneOf l n).map LaneAccess.ok).getD []

/-- What a load of `bytes` leaves of a register file: one register or pair, or four registers under b128 (R151). -/
def loaded (R R' : Regs) (act : Word) (t : ETy) (d : Reg) (bytes : Nat → List Byte) : Prop :=
  if t = .b128 then
    pairsOk R' ∧ (∀ k < 4, ∀ n < 32, lane R' (regAt d k) n =
        if act.getLsbD n then BitVec.ofNat 32 (leNat (((bytes n).drop (4 * k)).take 4)) else lane R (regAt d k) n)
      ∧ ∀ r, (∀ k < 4, r ≠ regAt d k) → ∀ n < 32, lane R' r n = lane R r n
  else lanesWritten R R' act t d fun n => loadedLane t (bytes n)

/-- A view of memory after some cells are stored: of two cells of one byte the later stays (R155). -/
def stored (v : Nat → Byte) (cells : List Host.Cell) (k : Nat) : Byte :=
  ((cells.reverse.find? fun c => c.1 == k).map fun c => c.2).getD (v k)

/-- The cells that the lanes of a store write, in ascending lane order. -/
def storeCells (w : Wave) (t : ETy) (d : Reg) (l : List LaneAccess) : List Host.Cell :=
  l.flatMap fun a => (spanCells a.ok (w.storedBytes t d a.lane)).flatMap fun x => x.2

/-- The grids are the same but for the words that the launch's own context has stored to since (R72). -/
def sameGrids (s t : State) : Prop :=
  (t.grids.map fun g => (g.1, { g.2 with stored := [] })) = s.grids.map fun g => (g.1, { g.2 with stored := [] })

/-- Nothing changed but memory, its copies in the L1 caches, and the stores on their way to it. -/
def onlyMemory (s t : State) : Prop :=
  t = { s with mem := t.mem, stores := t.stores, poisoned := t.poisoned, filters := t.filters, drQueue := t.drQueue, l1 := t.l1,
               grids := t.grids } ∧ sameGrids s t

/-- `t` with the L1 of the core that executes in `s` empty: before an instruction that reads memory in another way than a load,
or that the model orders, that L1 gives its lines up (R178, assumption 13). -/
def cold (s t : State) : State := t.flushL1 (coreOf s.cur)

/-- An agent's store under way writes byte `k`. -/
def underWay (s : State) (uid k : Nat) : Prop := ∃ p ∈ s.stores, p.agent = uid ∧ ∃ c ∈ p.cells, c.1 = k

/-- The bytes of spans that a store performed at its home writes: both replicas of a DR page (R191). -/
def homeCells (l : List Span) (bs : List Byte) : List Host.Cell :=
  (spanCells l bs).flatMap fun x => if x.1.ord = 3 then x.2 ++ x.2.map fun c => (otherReplica c.1, c.2) else x.2

/-- The lanes of an atomic, one after the other on a view of memory: what each lane reads, and the view afterwards (R161). -/
def atomicRun (size : Nat) (op : Nat → DWord → DWord) (v : Nat → Byte) :
    List (Nat × List Span) → List (Nat × DWord) × (Nat → Byte)
  | [] => ([], v)
  | (n, l) :: rest =>
    let m := BitVec.ofNat 64 (leNat (l.flatMap fun x => (List.range x.len).map fun i => v (x.key + i)))
    let r := atomicRun size op (stored v (homeCells l (leBytes (op n m).toNat size))) rest
    ((n, m) :: r.1, r.2)

/-- The atomics of R161: their types, destination, address and operand, and the value stored where memory holds `m`, the
operand is `x` and the destination held `e`. -/
def atomicRow (w : Wave) : Instr → Option ((ETy → Bool) × Reg × Pair × Reg × (DWord → DWord → DWord → DWord))
  | .aadd d a b => some (setAtomic, d, a, b, fun m x _ => atomicAdd (wmET w.wm) (wmSAT w.wm) m x)
  | .amin d a b => some (setAtomic, d, a, b, fun m x _ => extreme false (wmET w.wm) m x)
  | .amax d a b => some (setAtomic, d, a, b, fun m x _ => extreme true (wmET w.wm) m x)
  | .aand d a b => some (setAtomicBits, d, a, b, fun m x _ => m &&& x)
  | .aor d a b => some (setAtomicBits, d, a, b, fun m x _ => m ||| x)
  | .axor d a b => some (setAtomicBits, d, a, b, fun m x _ => m ^^^ x)
  | .axchg d a b => some (setAtomic, d, a, b, fun _ x _ => x)
  | .acas d a b => some (setAtomic, d, a, b, fun m x e => if (wmET w.wm).pattern m = (wmET w.wm).pattern e then x else m)
  | _ => none

/-- The accesses that the checks of R152 judge: of a load, a store or an atomic that passes its type checks. -/
def judged (s : State) (w : Wave) (i : Instr) : Option (List LaneAccess) :=
  let t := wmET w.wm
  let who := s.whoOf s.cur w
  match accessRow w i, atomicRow w i with
  | some (load, d, x), _ =>
    if setMem t && widened t d then
      some (s.whereAccesses who (if load then .read else .write) (activeMask w) x (accessSize t)) else none
  | none, some (ok, d, a, b, _) =>
    if ok t && widened t d && widened t b then
      some (s.laneAccesses who .atomic true (activeMask w) (pairLane w.regs a) (accessSize t)) else none
  | none, none => none

/-! ### Compressed chunks -/

/-- A compressed structure at `base` as the wave reads it (R157): header and mask bits. -/
structure Chunked where
  count : Nat
  nz : Nat
  cap : Nat
  mask : Nat
  deriving DecidableEq, Repr

/-- One access of `n` bytes at `va` that nothing stops. -/
def clearAt (s : State) (w : Wave) (kind : AccessKind) (va : DWord) (n : Nat) (sp : List Span) : Prop :=
  s.check (s.whoOf s.cur w) kind (kind == .atomic) va n = .ok sp ∧ ∀ x ∈ sp, x.partner = false
    ∧ s.peerHalted (coreOf s.cur) x = false ∧ (kind ≠ .write → s.spanPoisoned x = false)

/-- The number that the wave reads at spans. -/
def readAt (s : State) (w : Wave) (sp : List Span) : Nat := leNat (s.loadSpans w.uid sp)

/-! ### Completion objects, barriers and records -/

/-- An arrival with `t` transactions, and its evaluation (R166): the result and the object afterwards. -/
def arrival (o : CompObj) (t : Word) : Word × CompObj :=
  let tx := o.pendtx + t
  let owed := o.pendarr - 1
  let carry := if 0 < o.pendarr then o.carry else o.carry + 1
  (if 0 < o.pendarr then o.phase else o.phase + 1,
   if owed = 0 ∧ tx = 0 then { phase := o.phase + 1, expected := o.expected, pendarr := o.expected - carry, pendtx := 0, carry := 0 }
   else { phase := o.phase, expected := o.expected, pendarr := owed, pendtx := tx, carry := carry })

/-- `ARRIVE` and `ARRIVETX`: destination, offset register, and the transactions that arrive. -/
def arriveRow (w : Wave) : Instr → Option (Reg × Reg × Word)
  | .arrive d a => some (d, a, 0)
  | .arrivetx d a b => some (d, a, lane w.regs b w.leadLane)
  | _ => none

/-- A wave whose instruction at the issue point has completed after a wait: it goes on at the next word, and PAST of its open
log entries counts the instruction (R213). -/
def wentOn (w : Wave) : Wave :=
  { w with wait := .none, pc := w.pc + 4, answers := [], retired := false, skipBreak := false,
           log := w.log.map fun e => { e with past := e.past + 1 } }

/-- The records or items that the active lanes read: lane, queue and 64 bytes. -/
def laneRecords (s : State) (w : Wave) (a : Pair) (b : Reg) : List (Nat × Nat × Line) :=
  (s.laneAccesses (s.whoOf s.cur w) .read false (activeMask w) (pairLane w.regs a) 64).map fun y =>
    (y.lane, (lane w.regs b y.lane).toNat, lineOf (s.loadSpans w.uid y.ok))

/-- Every active lane's record can be read: aligned, and stopped by nothing. -/
def recordsReadable (s : State) (w : Wave) (a : Pair) : Prop :=
  (∀ n < 32, (activeMask w).getLsbD n = true → (pairLane w.regs a n).toNat % 64 = 0)
    ∧ clear s .read (s.laneAccesses (s.whoOf s.cur w) .read false (activeMask w) (pairLane w.regs a) 64)

/-- A queue of the pavilion is created, of either kind (R143). -/
def isCreated (s : State) (pav q : Nat) : Bool := decide (q < 256) && (s.desc pav q).getLsbD 97

/-- `ENQ` on its lanes in order: the state and each lane's status (the table of R145). -/
def enqueueRun (pav : Nat) : State → List (Nat × Nat × Line) → State × List (Nat × Nat)
  | s, [] => (s, [])
  | s, (n, q, x) :: rest =>
    let status := if !isCreated s pav q then 2 else if s.queueCap pav q ≤ s.queueCount pav q then 1
      else if !s.itemQueue pav q && !recordOk x then 3 else 0
    let r := enqueueRun pav (if status = 0 then s.appendEntry pav q x else s) rest
    (r.1, (n, status) :: r.2)

/-- What a wave hands to its die's distributor (R148). -/
def handed (s : State) (w : Wave) (r : Line) : ResumeEntry :=
  { record := r, pav := (s.whoOf s.cur w).pav, ctx := (s.whoOf s.cur w).ctx, byPriv := w.wsPriv, carried := none }

/-! ### Engines -/

/-- The block's counter of a copy channel on the wave's core (R286). -/
def copyNext (h : Half) (ch : BitVec 2) : Word := (h.next[ch.toNat]?).getD 1

/-- The elements that a scatter writes: of the lanes of one index the highest (R299). -/
def elements (keys : List (Nat × Nat × Nat × Nat)) : List (Nat × Nat × Nat × Nat) :=
  keys.filter fun k => !(keys.any fun j => j.2.1 == k.2.1 && decide (k.1 < j.1))

/-- The message of one lane of a scatter: at its element, the value or what is added to it (R299). -/
def scatterOp (w : Wave) (d : Reg) (adds : Bool) (k : Nat × Nat × Nat × Nat) : ElementOp :=
  let t := wmET w.wm
  let x := laneT w.regs t d k.1
  if adds then .add k.2.2.2 t (wmSAT w.wm) x else .store k.2.2.2 (leBytes x.toNat t.bytes)

/-! ### The matrix unit -/

/-- The pair of the wave in slot `s.cur`. -/
def pairHere (s : State) : Nat := pairOf (coreOf s.cur)

/-- The state and the wave once the records that a pair operation reads are read (R330). -/
def recordsHeld (s : State) (w : Wave) (ids : Wave → List Nat) : State × Wave :=
  (s.pairRecords ids, ((s.pairRecords ids).wave s.cur).getD w)

/-- The unit's operation that an instruction issues, once its checks pass: whether it joins the open batch, the state with the
records it used in the block's cache, and the operation. The KINDs are those that every operation issued before leaves
(R340, R343 to R358). -/
def matrixRow (s : State) (w : Wave) (i : Instr) : Option (Bool × State × MxKind) :=
  let kinds (t : State) : Kinds := (t.unit (pairHere s)).kinds
  let lead := lowestLane (activeMask w)
  let plain (x : BitVec 3) : Bool := x == 0 || x == 1
  let mma (r : Run (State × MxKind)) : Option (Bool × State × MxKind) :=
    match mmaTypes w, r with
    | .ok _, .ok (t, x) => if mmaSlotOk (kinds t) x then some (true, t, x) else none
    | _, _ => none
  if activeMask w = 0 then none
  else match i with
  | .mma slot k a b => let h := recordsHeld s w (mmaRecords k a b); mma (mmaPrep false slot k a b h.1 h.2)
  | .mmap slot k a b => let h := recordsHeld s w (mmaRecords k a b); mma (mmaPrep true slot k a b h.1 h.2)
  | .acdrain a slot =>
    let h := recordsHeld s w (drainRecords a)
    match drainPrep a slot h.1 h.2 with
    | .ok (t, x) => if drainSlotOk (kinds t) slot.toNat then some (true, t, x) else none
    | .error _ => none
  | .taload a mode =>
    match taloadPrep a mode s w with
    | .ok (t, x) => some (true, t, x)
    | .error _ => none
  | .taeval slot a b =>
    let d := (pairLane w.regs a lead).toNat
    let n := (lane w.regs b lead).toNat
    let off := d % 2 ^ 32
    let stride := d / 2 ^ 32 % 2 ^ 16
    let other := d / 2 ^ 48 % 2
    let u := s.unit (pairHere s)
    let size := u.tile.ty.bytes
    match (s.block w.block).bind fun x => (x.half (2 * pairHere s + other)).map fun h => (h.base, x.scratch, x.paired) with
    | none => none
    | some (base, len, paired) =>
      if n ≤ 64 ∧ d < 2 ^ 49 ∧ (other = 0 ∨ paired) ∧ u.loadingTile = false ∧ off % size = 0 ∧ stride % size = 0
          ∧ (∀ q < n, ∀ f ∈ u.tile.features, off + q * stride + f * size + size ≤ len)
          ∧ ((kinds s).working slot.toNat = 0 ∨ (kinds s).working slot.toNat = 5) then
        some (true, s, .taeval slot (scratchKey (2 * pairHere s + other) (base + off)) stride n)
      else none
  | .cbload a cb =>
    match cbloadPrep a s w with
    | .ok (t, bs) => some (false, t, .cbload cb (Vector.ofFn fun n => BitVec.ofNat 16 (leNat ((bs.drop (2 * n.val)).take 2))))
    | .error _ => none
  | .mxredx slot a =>
    match redxPrep slot a s w with
    | .ok (t, x) => if (kinds t).visible slot.toNat = 0 ∨ (kinds t).visible slot.toNat = 2 then some (true, t, x) else none
    | .error _ => none
  | .aczero mask => if mask = 0 then none else some (false, s, .zero mask)
  | .acst d a slot =>
    let kind : BitVec 3 := if wmET w.wm = .f32 then 1 else 2
    let held := (kinds s).visible slot.toNat
    if (setInt32 (wmET w.wm) ∨ wmET w.wm = .f32) ∧ (∀ n < 32, (activeMask w).getLsbD n = true → (lane w.regs a n).toNat < 2 ^ 13)
        ∧ (held = 0 ∨ held = kind) then
      some (false, s, .acst slot kind ((lanesOf (activeMask w)).map fun n =>
        ((lane w.regs a n).toNat % 64 * 128 + (lane w.regs a n).toNat / 64, lane w.regs d n)))
    else none
  | .sacc sd a ss =>
    if plain ((kinds s).working sd.toNat) ∧ plain ((kinds s).visible ss.toNat) ∧ (s.unit (pairHere s)).writesVisible ss.toNat = false
        ∧ (slotOf (s.unit (pairHere s)).visible ss.toNat).poison = [] then some (true, s, .sacc sd ss (lane w.regs a lead))
    else none
  | _ => none

/-- Pair instructions that act only where some lane is active (R340). -/
def laneBound : Instr → Bool
  | .mma .. | .mmap .. | .acdrain .. | .taload .. | .taeval .. | .cbload .. | .mxredx .. | .acst .. | .sacc .. | .acld ..
  | .leafgather .. => true
  | _ => false

/-! ### Sampler reads -/

/-- What the wave reads of `n` bytes at an address. -/
def readVa (s : State) (w : Wave) (va n : Nat) : Nat :=
  match s.check (s.whoOf s.cur w) .read false (BitVec.ofNat 64 va) n with
  | .ok sp => readAt s w sp
  | .error _ => 0

/-- The residency bit of the tile that holds texel (x, y) of level `l` (R374, R375). -/
def residentAt (s : State) (w : Wave) (r : Lod) (l x y : Nat) : Bool :=
  let b := ((r.levels[l]?.map fun z => z.2).getD 0) + (y / r.th * r.tx l + x / r.tw)
  decide (readVa s w (r.resmap + b / 8) 1 / 2 ^ (b % 8) % 2 = 1)

/-- CODE and LEVEL of a lookup: the first level from the wanted one on whose tile is resident (R376). -/
def lookup (s : State) (w : Wave) (r : Lod) (x y want : Nat) : Nat × Nat :=
  if r.count ≤ want ∨ r.w want ≤ x ∨ r.h want ≤ y then (3, 0)
  else match (List.range r.count).find? fun l =>
      decide (want ≤ l) && residentAt s w r l (x / 2 ^ (l - want)) (y / 2 ^ (l - want)) with
    | some l => (if l = want then 0 else 1, l)
    | none => (2, r.count - 1)

/-- x, y and the wanted level of `LDLOD`'s selector (R383). -/
def wanted (c : Word) : Nat × Nat × Nat := (c.toNat % 2 ^ 14, c.toNat / 2 ^ 14 % 2 ^ 14, c.toNat / 2 ^ 28)

/-- The value and the status word of `LDLOD` for a selector (R383). -/
def ldlodResult (s : State) (w : Wave) (r : Lod) (c : Word) : Word × Word :=
  let q := wanted c
  let a := lookup s w r q.1 q.2.1 q.2.2
  let x := q.1 / 2 ^ (a.2 - q.2.2)
  let y := q.2.1 / 2 ^ (a.2 - q.2.2)
  let bits := readVa s w (r.texelAddr a.2 x y) (Nat.max 1 (r.ty.width / 8)) / 2 ^ (r.texelBit a.2 x y % 8) % 2 ^ r.ty.width
  (if a.1 ≤ 1 then texelWord r.ty bits else 0, BitVec.ofNat 32 (a.1 + a.2 * 16 + q.2.2 * 256))

/-- What a lookup that does not find its wanted tile logs: wanted level, tile, level used (R379). -/
def ldlodLog (s : State) (w : Wave) (r : Lod) (c : Word) : Option (Nat × Nat × Nat × Nat) :=
  let q := wanted c
  let a := lookup s w r q.1 q.2.1 q.2.2
  if a.1 = 1 ∨ a.1 = 2 then some (q.2.2, q.1 / r.tw, q.2.1 / r.th, a.2) else none

/-- Two registers that one instruction writes lane by lane, and nothing else. -/
def pairWritten (R R' : Regs) (act : Word) (d : Reg) (f g : Nat → Word) : Prop :=
  pairsOk R' ∧ (∀ n < 32, lane R' d n = (if act.getLsbD n then f n else lane R d n)
      ∧ lane R' (regAt d 1) n = if act.getLsbD n then g n else lane R (regAt d 1) n)
    ∧ ∀ r, r ≠ d → r ≠ regAt d 1 → ∀ n < 32, lane R' r n = lane R r n

/-! ### The launch FIFO and the Sluice -/

/-- Entry `n` of the ring of a block's half on a core, as memory holds it (R241). -/
def entryAt (s : State) (x : Block) (h : Half) (n : Nat) : Word × Word × DWord :=
  let k := scratchKey h.core (h.base + x.scratch - 4096 + 16 * (n % 256))
  (BitVec.ofNat 32 (s.mem.readLE k 4), BitVec.ofNat 32 (s.mem.readLE (k + 4) 4), BitVec.ofNat 64 (s.mem.readLE (k + 8) 8))

/-! ### Walkers -/

/-- The walker that steps is `w`. -/
def walks (s : State) (w : Walker) : Prop := s.walker s.curWalker = some w

/-- A walker after a step that changes nothing of it. -/
def pastWord (w : Walker) : Walker := { w with pc := w.pc + 4, wait := .none, waited := 0, answers := [], struck := none }

/-- A walker as it stands when its step has no effect. -/
def stays (w : Walker) : Walker := { w with wait := .none, waited := 0 }

/-- The step retires: the walker goes on as `w'`, the device is otherwise as `t` has it, and the step is counted (R231, R440). -/
def retiresAs (i : Instr) (s : State) (w : Walker) (t : State) (w' : Walker) : Prop :=
  let who := s.walkerWho s.curWalker w
  exec i s = .next ((t.count who.core who.pav who.ctx 6 1).setWalker s.curWalker w')

/-- The device with a walker's step counted, and `n` bytes that it read (R231, R440). -/
def stepCounted (s : State) (w : Walker) (n : Nat) : State :=
  let who := s.walkerWho s.curWalker w
  (s.count who.core who.pav who.ctx 6 1).countRead s.curWalker w n

/-- The step ends the query with a status and a payload, and has no other effect but that it counts (R244, R255, R440). -/
def queryEnds (i : Instr) (s : State) (w : Walker) (st : QStatus) (payload : DWord) : Prop :=
  let who := s.walkerWho s.curWalker w
  exec i s = .next ((s.count who.core who.pav who.ctx 6 1).endWalker s.curWalker (stays w) st payload)

/-- The step, which has read `n` bytes, posts an entry, at once or when it may, and counts (R242, R440). -/
def queryPosts (i : Instr) (s : State) (w : Walker) (st : QStatus) (payload : DWord) (terminal f : Bool) (n : Nat) : Prop :=
  exec i s = .next ((stepCounted s w n).postOrWait s.curWalker (stays w) { tag := w.tag, status := st.code, payload := payload }
    terminal f)

/-- The node that NODEBUF holds, before the checks of R240. -/
def nodeHeld (w : Walker) : Node :=
  let d := w.decoder (refDec w.noderef)
  { d := d, bits := leNat (w.nodebuf.take d.bytes), ref := w.noderef }

/-- The walker reads `bs` at an address. -/
def walkerReads (s : State) (w : Walker) (va : DWord) (n : Nat) (bs : List Byte) : Prop :=
  s.walkerRead s.curWalker w .read va n = .ok bs

/-- Registers w0 to w15 after writes, the later of one register staying. -/
def gtsRegs (w : Walker) (l : List (WReg × DWord)) : Vector DWord 16 :=
  Vector.ofFn fun k => (((l.reverse.find? fun x => x.1.toNat == k.val).map fun x => x.2).getD (w.reg (BitVec.ofNat 4 k.val)))

/-- R268 and R270: the register an instruction writes, and its value. -/
def aluRow (w : Walker) (i : Instr) : Option (WReg × DWord) :=
  let int (r : WReg) : Int := (w.reg r).toInt
  let wrap (x : Int) : DWord := BitVec.ofInt 64 x
  match i with
  | .gtsAdd d a b => some (d, wrap (int a + int b))
  | .gtsAddImm d a imm => some (d, wrap (int a + imm.toInt))
  | .gtsSub d a b => some (d, wrap (int a - int b))
  | .gtsSubImm d a imm => some (d, wrap (int a - imm.toInt))
  | .gtsMul d a b => some (d, wrap (int a * int b))
  | .gtsMulImm d a imm => some (d, wrap (int a * imm.toInt))
  | .gtsAnd d a b => some (d, w.reg a &&& w.reg b)
  | .gtsAndImm d a imm => some (d, w.reg a &&& wrap imm.toInt)
  | .gtsOr d a b => some (d, w.reg a ||| w.reg b)
  | .gtsOrImm d a imm => some (d, w.reg a ||| wrap imm.toInt)
  | .gtsXor d a b => some (d, w.reg a ^^^ w.reg b)
  | .gtsXorImm d a imm => some (d, w.reg a ^^^ wrap imm.toInt)
  | .gtsShl d a b => some (d, wrap (int a * 2 ^ ((w.reg b).toNat % 64)))
  | .gtsShlImm d a imm => some (d, wrap (int a * 2 ^ (imm.toInt % 64).toNat))
  | .gtsShr d a b => some (d, BitVec.ofNat 64 ((w.reg a).toNat / 2 ^ ((w.reg b).toNat % 64)))
  | .gtsShrImm d a imm => some (d, BitVec.ofNat 64 ((w.reg a).toNat / 2 ^ (imm.toInt % 64).toNat))
  | .gtsMov d a => some (d, w.reg a)
  | .gtsLdi d imm => some (d, wrap imm.toInt)
  | .stkd d => some (d, BitVec.ofNat 64 w.depth)
  | _ => none

/-- R271: whether a condition holds of two register values. -/
def condHolds (cond : BitVec 3) (x y : DWord) : Prop :=
  match cond.toNat with
  | 0 => x = y
  | 1 => x ≠ y
  | 2 => x.toInt < y.toInt
  | 3 => x.toInt ≤ y.toInt
  | 4 => x.toNat < y.toNat
  | 5 => x.toNat ≤ y.toNat
  | 6 => ∃ c, cmpF (ETy.f32.fmt.decode (loWord x).toNat) (ETy.f32.fmt.decode (loWord y).toNat) = some c ∧ c < 0
  | _ => ∃ c, cmpF (ETy.f32.fmt.decode (loWord x).toNat) (ETy.f32.fmt.decode (loWord y).toNat) = some c ∧ c ≤ 0

/-- R258 to R265, of a valid node: the registers that an instruction writes, and f where it sets it. -/
def nodeRow (w : Walker) (n : Node) (i : Instr) : Option (List (WReg × DWord) × Option Bool) :=
  let sum (l : List Nat) : Nat := (l.map fun k => 2 ^ k).sum
  match i with
  | .ndec d => some ([(d, BitVec.ofNat 64 n.entries)], some (n.entries != 0))
  | .nfield d a k =>
    let j := (k.toNat + (w.reg a).toNat % 16) % 16
    if k.toNat ≤ 15 ∧ j < n.d.count then some ([(d, n.value j)], none) else none
  | .nchild d a =>
    let c := n.child ((w.reg a).toNat % 256)
    some ([(d, c)], some (c != 0))
  | .boxt d a =>
    if a.toNat ≤ 12 then n.boxes.map fun boxes =>
      let hits := boxHits (Ray.of [w.reg a, w.reg (a + 1), w.reg (a + 2), w.reg (a + 3)]) boxes
      let best := nearest hits
      ([(d, BitVec.ofNat 64 (sum (hits.map fun h => h.1) + (best.elim 0 fun h => h.1) * 2 ^ 8
        + (best.elim 0 fun h => h.2.round 0) * 2 ^ 32))], some !hits.isEmpty)
    else none
  | .trit d a =>
    if a.toNat ≤ 12 ∧ d.toNat ≤ 14 then n.triangle.map fun v =>
      match (Ray.of [w.reg a, w.reg (a + 1), w.reg (a + 2), w.reg (a + 3)]).bind fun r => r.triangle (v.map XR.f32) with
      | none => ([], some false)
      | some (t, u, x) =>
        ([(d, BitVec.ofNat 64 (t.round 0 + u.round 0 * 2 ^ 32)), (d + 1, BitVec.ofNat 64 (x.round 0))], some true)
    else none
  | .kcmp d a mode => n.keys.map fun ks =>
      let sg := ((n.d.fields.find? fun f => f.kind == 6).map NodeField.signed).getD false
      let x : Int := if sg then (loWord (w.reg a)).toInt else (loWord (w.reg a)).toNat
      ([(d, BitVec.ofNat 64 (ks.countP fun k => decide (if mode = 0 then k < x else k ≤ x)))], some (ks.contains x))
  | .krange d a b => n.keys.map fun ks =>
      let sg := ((n.d.fields.find? fun f => f.kind == 6).map NodeField.signed).getD false
      let v (r : WReg) : Int := if sg then (loWord (w.reg r)).toInt else (loWord (w.reg r)).toNat
      let key (k : Nat) : Int := (ks[k]?).getD 0
      let x := if v b < v a then 0 else
        sum ((List.range ks.length).filter fun k => decide (v a ≤ key k ∧ key k ≤ v b))
          + 2 ^ 32 * sum ((List.range (ks.length + 1)).filter fun k =>
            decide ((k = 0 ∨ key (k - 1) ≤ v b) ∧ (k = ks.length ∨ v a ≤ key k)))
      ([(d, BitVec.ofNat 64 x)], some (x != 0))
  | _ => none

/-- An instruction that needs fields the node lacks (R259, R264). -/
def lacks (n : Node) : Instr → Bool
  | .boxt _ a => decide (a.toNat ≤ 12) && n.boxes.isNone
  | .trit d a => decide (a.toNat ≤ 12) && decide (d.toNat ≤ 14) && n.triangle.isNone
  | .frust _ _ => n.boxes.isNone
  | .kcmp _ _ _ => n.keys.isNone
  | .krange _ _ _ => n.keys.isNone
  | .cover _ _ => n.triangle.isNone
  | _ => false

/-- Instructions that use the node in NODEBUF, whatever else they check first. -/
def usesNode : Instr → Bool
  | .ndec _ | .nchild _ _ | .frust _ _ | .kcmp _ _ _ | .krange _ _ _ | .pushm _ _ _ | .cover _ _ => true
  | _ => false

/-- A program list as `TOPK` finds it: COUNT, K and the entries (R267). -/
def nearList (s : State) (w : Walker) (base : DWord) (k : Nat) (l : List NearEntry) : Prop :=
  ∃ head body, walkerReads s w base 8 head ∧ leNat (head.take 2) = l.length ∧ leNat ((head.drop 2).take 2) = k
    ∧ (l ≠ [] → walkerReads s w (base + 8) (8 * l.length) body)
    ∧ ∀ j < l.length, l[j]? = some (leNat ((body.drop (8 * j)).take 4), leNat ((body.drop (8 * j + 4)).take 4))

/-- The answer of `TOPK` for the list it leaves (R267). -/
def topkAnswer (k : Nat) (l : List NearEntry) : DWord :=
  if l.length = k then BitVec.ofNat 64 ((l.getLast?.map fun e => e.2).getD 0) else 0x7F800000

/-- How often the pushes of `l` spill, and what they spill: while 16 entries are resident the lowest 8 go to their slots first
(R245, R268). -/
def spillsOf (w : Walker) (l : List StackEntry) : List (DWord × List Byte) :=
  (List.range (((w.stack ++ l).length - 9) / 8)).map fun j =>
    (w.spill + BitVec.ofNat 64 (16 * (w.depth - w.stack.length + 8 * j)),
     (((w.stack ++ l).drop (8 * j)).take 8).flatMap StackEntry.bytes)

/-- How many pushes a walker takes: to depth 128, and without a spill area while they stay resident (R245). -/
def pushRoom (w : Walker) : Nat := if w.spill = 0 then Nat.min (128 - w.depth) (16 - w.stack.length) else 128 - w.depth

/-- Instruction `i` pushes the entries `l` and leaves f as `f`: all of them, or none and the query ends (R245, R268). -/
def pushes (s : State) (w : Walker) (i : Instr) (l : List StackEntry) (f : Bool) : Prop :=
  (∀ e, l[pushRoom w]? = some e → queryEnds i s w .stackDepth e.ref)
    ∧ ∀ t, l.length ≤ pushRoom w → s.walkerStores s.curWalker w (spillsOf w l) = .ok t →
      retiresAs i s w t { pastWord w with
        stack := (w.stack ++ l).drop (8 * (spillsOf w l).length), depth := w.depth + l.length, f := f }

/-! ### Events -/

/-- Only the physical function's registers changed, to `f`. -/
def onlyPf (s : State) (f : PhysFn) : State := { s with pf := f }

/-- The firmware that reset starts: slot A, else slot B, and none where neither verifies (R455). -/
def verified (f : PhysFn) : Option (List Byte) :=
  if Config.firmwareVerifies f.flashA then some f.flashA else if Config.firmwareVerifies f.flashB then some f.flashB else none

/-- The flash once a reset has put the image of a mailbox that was written into slot A (R455, assumption 75). -/
def imageTaken (f : PhysFn) : PhysFn :=
  if f.fwmbox = [] then f else { f with flashA := (List.range 4096).map fun n => (Assoc.find f.fwmbox n).getD 0 }

/-- A die has no failed pair that is not mapped out yet (R433). -/
def noPairLeft (s : State) (die : Nat) : Prop :=
  (∀ p ∈ s.pf.marked, dieOf (2 * p) ≠ die) ∧ (s.pf.mapoutBusy = true → dieOf (2 * s.pf.mapout.toNat) ≠ die)

/-- Bits that READY needs before a function sets its own (the table of R451). -/
def needs (n : Nat) : List Nat :=
  if n = 0 then [] else if n = 1 then [0] else if n = 5 then [2, 3] else if n = 6 then [4]
  else if n = 9 ∨ n = 10 then [2, 3, 4, 7, 8] else if n = 11 ∨ n = 12 then [9, 10] else if n = 13 ∨ n = 14 then [2, 3] else [1]

/-- Bits [51:6] of a value in place, and the others zero (R378). -/
def ringBits (v : DWord) : DWord := v.extractLsb' 6 46 ++ 0#6 |>.setWidth 64

/-- The error that a host store to an enqueue window makes, where it makes one (R398, R399). -/
def windowError (s : State) (pav q : Nat) (aligned : Bool) (x : Line) : Option Nat :=
  if !isCreated s pav q then some 8 else if !aligned then some 1
  else if s.queueCap pav q ≤ s.queueCount pav q then some 2
  else if !s.itemQueue pav q && !recordOk x then some 3 else none

/-- RESV of the enabled RT queues (R397). -/
def rtReserved (s : State) : List Nat :=
  (s.enabledQueues.filter fun x => lineField x.2.2 13 1 == 0).map fun x => lineField x.2.2 16 2

/-- A line is poisoned afterwards, and it alone anew. -/
def poisons (s t : State) (line : Nat) : Prop := ∀ l, l ∈ t.poisoned ↔ l = line ∨ l ∈ s.poisoned

/-- A fault leaves the faults that are pending. -/
def answered (s : State) (pav : Nat) (f : PendingFault) : State :=
  s.setPav pav { s.pav pav with faults := (s.pav pav).faults.filter fun x => x.id != f.id }

/-- A request of this card to the partner card leaves those without an answer. -/
def replied (s : State) (r : FabricReq) : State := { s with fabric := s.fabric.filter fun x => x.id != r.id }

/-- Instruction `i` of wave `k` waits for room at its issue point, in the way `r`, and `e` is the step that lets it look again. -/
def retries (k : Nat) (i e : Instr) : Wait → Prop
  | .spawnRoom a b => i = .spawn a b ∧ e = .spawnAppend k
  | .copyRoom d ch => i = .cpygo d ch ∧ e = .cpygoStart k
  | .launchRoom d a b => i = .tlaunch d a b ∧ e = .tlaunchEnqueue k
  | .writers mask => mask ≠ 0 ∧ i = .acswap mask ∧ e = .acswapExchange k
  | .primRoom a => i = .primemit a ∧ e = .primemitSend k
  | _ => False

/-- The 16 bytes of a feedback entry (R378). -/
def feedbackBytes (x : LookupLog) : List Byte :=
  leBytes x.resid.toNat 4 ++ leBytes x.wanted 1 ++ leBytes x.level 1 ++ leBytes x.core 2 ++ leBytes x.tx 2 ++ leBytes x.ty 2
    ++ leBytes 0 4

/-- An entry was posted to a ring of `n` entries: its bytes stand at the place PROD named, PROD counts it, and nothing else of
memory changed. -/
def ringEntry (s t : State) (base size n : Nat) (bs : List Byte) : Prop :=
  let prod := s.mem.readLE base 4
  let at_ := base + 64 + size * (prod % n)
  t.mem.bytes at_ size = bs ∧ t.mem.readLE base 4 = (prod + 1) % 2 ^ 32
    ∧ ∀ k, (k < base ∨ base + 4 ≤ k) → (k < at_ ∨ at_ + size ≤ k) → t.mem.read k = s.mem.read k

/-- The debug module of a core is `d` afterwards, and nothing else changed (R435). -/
def onlyDebug (s : State) (core : Nat) (d : Debug) : State := s.setCore core { s.core core with dbg := d }

/-- A wave is halted, on its own or with its core, in slot `slot` of `core` (R436, R438). -/
def isHalted (s : State) (core slot : Nat) (w : Wave) : Prop :=
  s.wave (core * 32 + slot) = some w ∧ (w.wait = .halted ∨ (s.core core).dbg.halt = true ∨ (s.core core).gangHalt = true)

/-- A halted wave let go. -/
def letGo (w : Wave) : Wave := { w with wait := if w.wait = .halted then .none else w.wait }

/-- Nothing but the pavilions changed, and of those only `pav`, which is now `p`. -/
def onlyPav (s t : State) (pav : Nat) (p : Pavilion) : Prop :=
  t.pav pav = p ∧ (∀ q ≠ pav, t.pav q = s.pav q) ∧ t = { s with pavs := t.pavs }

/-- The grid that a record with extents `e` and launch values `v` makes on a die (R43, R72, R402 to R404). -/
def gridOf (s : State) (die pav q : Nat) (h : Head) (v : Nat × Nat × Bool) (e : Nat × Nat × Nat) : Grid :=
  let all := List.range (e.1 * e.2.1 * e.2.2)
  { pav := pav, ctx := h.ctx, queue := some q, home := die, cls := h.cls, record := h.record, isGrid := recGrid h.record,
    x := e.1, y := e.2.1, z := e.2.2, budget := v.1, scratch := v.2.1, priv := v.2.2, waves := recWaves h.record,
    paired := recPaired h.record, persistent := recPersistent h.record,
    unplaced := if recGrid h.record then #v[all.filter fun n => n % 2 == 0, all.filter fun n => n % 2 == 1]
      else if die = 0 then #v[[0], []] else #v[[], [0]],
    received := if recGrid h.record then (if die = 0 then #v[true, false] else #v[false, true]) else #v[true, true],
    memory := s.mem }

/-- The start state of wave `n` of a block (R42, R43). -/
def startsAs (w : Wave) (g : Grid) (linear n : Nat) : Prop :=
  w.waveId = n ∧ w.exec = 0xFFFFFFFF ∧ w.wm = 0 ∧ w.depth = 0 ∧ w.masks = [] ∧ w.log = [] ∧ w.wait = .none ∧ w.handler = none
    ∧ w.pc = recCode g.record ∧ w.fp = recFrame g.record ∧ w.lr = 0 ∧ w.gbudget = BitVec.ofNat 32 g.budget ∧ w.wsPriv = g.priv
    ∧ w.wsStep = false ∧ w.rseed = 0x6A5D39C1 ^^^ BitVec.ofNat 32 (linear * 64 + n)
    ∧ w.preds = #v[0xFFFFFFFF, 0, 0, 0, 0, 0, 0, 0]
    ∧ ∀ r : Reg, rd w.regs r = .u (if r.toNat < 10 then recArg g.record r.toNat else 0)

/-- A matrix operation's effect on its unit, for those that neither read nor write memory (R347, R348, R352, R353). -/
def unitAfter (u : MatrixUnit) : MxKind → Option MatrixUnit
  | .zero mask => some { u with working := u.working.mapIdx fun k t => if mask.getLsbD k then {} else t }
  | .cbload cb data => some { u with codebooks := u.codebooks.setIfInBounds cb.toNat data }
  | .acst slot kind words =>
    some { u with visible := setSlot u.visible slot.toNat (acstTile (slotOf u.visible slot.toNat) kind words) }
  | .sacc dst src x =>
    some { u with working := setSlot u.working dst.toNat (saccTile (slotOf u.working dst.toNat) (slotOf u.visible src.toNat) x) }
  | _ => none

/-- The operation at the head of a unit's order has retired (R331): it is gone, and the unit is `u` but for the batches that
retire with it and for what their execution again needs. -/
def opRetired (t : State) (pair : Nat) (o : MxOp) (u : MatrixUnit) : Prop :=
  t.unit pair = { u with ops := u.ops.filter (fun x => x.id != o.id), batchDone := (t.unit pair).batchDone,
                         past := (t.unit pair).past }

/-- The machine with its next moves taken from a list (assumption 1). -/
def nextIs (s : State) (m : Move) (rest : List Move) : Prop := s.agenda = m :: rest

/-- What a step makes of the outcome of the move that it carries out: time passes (R60, R61). -/
def ticked (r : Host.Outcome State Fault Refusal) : Host.Outcome State Fault Refusal :=
  match r with
  | .next t => .next t.tick
  | r => r

/-- A wave's instruction at `w.pc` and what follows it: after-traps and counts (R206, R213, R218, R437, R440), and the turn of the
other waves of its quad (R67). Rows that it has written whole carry poison no longer (R429). -/
def retiring (k : Nat) (w : Wave) (written : List Reg) (r : Host.Outcome State Fault Refusal) :
    Host.Outcome State Fault Refusal :=
  match r with
  | .next t => .next (((t.renewRows k written).afterRetire k w.pc (activeMask w) w.wsStep).passTime k)
  | r => r

/-- A walker's step and the turn of the other walkers of its core (R230). -/
def stepping (k : Nat) (r : Host.Outcome State Fault Refusal) : Host.Outcome State Fault Refusal :=
  match r with
  | .next t => .next (t.passSteps k)
  | r => r

/-- A wave fetches word `x` at its issue point, from memory of this card that it may fetch (R71, R72). -/
def wordAt (s : State) (k : Nat) (w : Wave) (x : Word) : Prop :=
  w.pc.toNat < globalEnd ∧ ∃ l, s.resolve (s.whoOf k w) .fetch false w.pc.toNat 4 = .ok l
    ∧ (∀ y ∈ l, y.partner = false ∧ s.spanPoisoned y = false) ∧ x = s.codeWord w l

end Sys2Proof.Claims

section Statements

open Sys2Proof Sys2Proof.Machine Sys2Proof.Claims

/-- Under an integer element type with its pairs aligned (R76), an instruction of R100 to R103 completes: each active lane
gets the exact result, saturated where its row reads SAT and `WM.SAT` is 1, else reduced modulo 2^w (R86, R87), whatever the
storage shapes of its operands (R50). -/
def Obligations.IntegerResults : Prop := ∀ (s : State) (w : Wave) (i : Instr) (x : IntRow),
  s.runs w → w.roomFor 2 → setInt (wmET w.wm) = true → intRow w (wmET w.wm) i = some x →
  x.fields.all (widened (wmET w.wm)) = true →
  writesLanes i s w (activeMask w) (wmET w.wm) x.dest fun n => (wmET w.wm).fit (x.sat && wmSAT w.wm) (x.exact n)

/-- `GETSR`, `LDI`, `LDIH`, `PCREL`, `CBASE`, `MOV` and `SEL` complete and write what R93 and R95 to R98 say, and nothing
else; under b128 `MOV` and `SEL` raise `ILLEGAL_TYPE`. -/
def Obligations.MoveResults : Prop := ∀ (s : State) (w : Wave),
  (∀ (i : Instr) (x : LaneRow), s.runs w → w.roomFor 2 → moveRow s w i = some x → writesLanes i s w x.lanes x.ty x.dest x.value)
  ∧ ∀ d a b : Reg, s.wave s.cur = some w → wmET w.wm = .b128 →
    trapsAt (.mov d a) s w .illegalType 0 0 ∧ trapsAt (.sel d a b) s w .illegalType 0 0

/-- Bit fields, `ADDA`, the `LEA`s and `SUBA` complete under n32 and s32 and write what R104, R106 and R108 say. -/
def Obligations.AddressResults : Prop := ∀ (s : State) (w : Wave) (i : Instr) (x : LaneRow),
  s.runs w → w.roomFor 2 → addressRow w i = some x → writesLanes i s w x.lanes x.ty x.dest x.value

/-- The lane and cross-lane instructions complete and write what R111, R113 to R116 and R119 say, sources read before any
write, whether or not their lanes are active. -/
def Obligations.CrossLaneResults : Prop := ∀ (s : State) (w : Wave) (i : Instr) (x : LaneRow),
  s.runs w → w.roomFor 2 → crossRow w i = some x → writesLanes i s w x.lanes x.ty x.dest x.value

/-- `SCANADD` and the reductions complete and write what R117 and R118 say, in ascending order over the active lanes; under SR a
float type leaves `RSEED` stepped once per active lane, after `REDMIN` and `REDMAX` too (R118, assumption 59). -/
def Obligations.FoldResults : Prop := ∀ (s : State) (w : Wave) (i : Instr) (x : LaneRow),
  s.runs w → w.roomFor 2 → foldRow w i = some x → writesRounded i s w x.lanes x.ty x.dest x.value (foldSeed w i)

/-- The float instructions complete and write one rounding of the exact result (R121 to R130). Under SR an instruction that
rounds gives the active lanes the successive values of `RSEED` and leaves it stepped once for each (R83); any other leaves
`RSEED` alone. For `FEXP2`, `FLOG2`, `FSINPI` and `FCOSPI` the exact result is the model's evaluation at 250 places (assumption 17). -/
def Obligations.FloatResults : Prop := ∀ (s : State) (w : Wave) (i : Instr) (x : FloatRow),
  s.runs w → w.roomFor 4 → floatRow w i = some x →
  if x.rounds ∧ wmRM w.wm = 5 then
    writesRounded i s w (activeMask w) x.ty x.dest (fun n => x.value (randomBits w.rseed (activeMask w) n) n)
      (seedAfter w.rseed (activeMask w))
  else writesLanes i s w (activeMask w) x.ty x.dest (x.value 0)

/-- The compares and the predicate logic complete: the active bits of the destination get the relation (R109) or the
function (R110), every other bit of every predicate stays, and a write to p0 is discarded (R53). -/
def Obligations.PredicateResults : Prop := ∀ (s : State) (w : Wave) (i : Instr) (q : Pred) (f : Nat → Bool),
  s.wave s.cur = some w → predRow w i = some (q, f) →
  ∃ P, exec i s = .next (s.onlyWave { w.after with preds := P }) ∧ ∀ r : Pred, ∀ n < 32,
    (predBits { w with preds := P } r).getLsbD n
      = if r = q ∧ q ≠ 0 ∧ (activeMask w).getLsbD n then f n else (predBits w r).getLsbD n

/-- `NOP` changes nothing; `MODEL`, `MODEH` and `MODEV` write their part of `WM` whatever the guard, and under an empty `EXEC`
`MODEV` changes nothing; a reserved code raises `ILLEGAL_MODE` and leaves `WM` unchanged (R57, R90 to R92). -/
def Obligations.ModeWrites : Prop := ∀ (s : State) (w : Wave), s.wave s.cur = some w →
  exec .nop s = .next (s.onlyWave w.after)
  ∧ (∀ imm : BitVec 16, (imm.extractLsb' 12 3).toNat ≤ 5 →
      exec (.model imm) s = .next (s.onlyWave { w.after with wm := w.wm.extractLsb' 16 16 ++ imm }))
  ∧ (∀ imm : BitVec 8, (imm.extractLsb' 0 3).toNat ≤ 4 → (imm.extractLsb' 3 3).toNat ≤ 5 →
      exec (.modeh imm) s = .next (s.onlyWave { w.after with wm := 0#8 ++ imm ++ w.wm.extractLsb' 0 16 }))
  ∧ (∀ a : Reg, w.exec = 0 → exec (.modev a) s = .next (s.onlyWave w.after))
  ∧ (∀ a : Reg, w.exec ≠ 0 → wmLegal (lane w.regs a (lowestLane w.exec)) = true →
      exec (.modev a) s = .next (s.onlyWave { w.after with wm := lane w.regs a (lowestLane w.exec) }))
  ∧ (∀ imm : BitVec 16, 5 < (imm.extractLsb' 12 3).toNat → trapsAt (.model imm) s w .illegalMode 0 0)
  ∧ (∀ imm : BitVec 8, 4 < (imm.extractLsb' 0 3).toNat ∨ 5 < (imm.extractLsb' 3 3).toNat →
      trapsAt (.modeh imm) s w .illegalMode 0 0)
  ∧ (∀ a : Reg, w.exec ≠ 0 → wmLegal (lane w.regs a (lowestLane w.exec)) = false → trapsAt (.modev a) s w .illegalMode 0 0)

/-- `SETSR` with no active lane changes nothing; else it writes the register it names by that register's own rule (R55, R59,
R60, R94). -/
def Obligations.SetsrResults : Prop := ∀ (s : State) (w : Wave) (a : Reg) (n : BitVec 16), s.wave s.cur = some w →
  srWritable n.toNat w.wsPriv = true → (sregWide n.toNat = true → a.getLsbD 0 = false) →
  let x := srValue w a n.toNat
  let c := s.core (coreOf s.cur)
  let core (c : CoreState) : Prop := exec (.setsr a n) s = .next ((s.setCore (coreOf s.cur) c).setWave s.cur w.after)
  let wave (w' : Wave) : Prop := exec (.setsr a n) s = .next (s.onlyWave w')
  (activeMask w = 0 → wave w.after)
  ∧ (activeMask w ≠ 0 → n = 0x000 → wmLegal (loWord x) = true → wave { w.after with wm := loWord x })
  ∧ (activeMask w ≠ 0 → n = 0x001 → wave { w.after with wsStep := x.getLsbD 0 })
  ∧ (activeMask w ≠ 0 → n = 0x003 → wave { w.after with lr := x })
  ∧ (activeMask w ≠ 0 → n = 0x004 → wave { w.after with fp := x })
  ∧ (activeMask w ≠ 0 → n = 0x00D → (loWord x).toNat % 8 = 0 → 8 ≤ (loWord x).toNat → (loWord x).toNat ≤ 256 →
      w.gused ≤ (loWord x).toNat →
      wave (if (loWord x).toNat ≤ w.gbudget.toNat ∨ (loWord x).toNat - w.gbudget.toNat ≤ s.unreserved s.cur
        then { w.after with gbudget := loWord x } else w.after))
  ∧ (activeMask w ≠ 0 → n = 0x00F → wave { w.after with rseed := if loWord x = 0 then 1 else loWord x })
  ∧ (activeMask w ≠ 0 → ∀ k < 8, n.toNat = 0x040 + k → core { c with region := c.region.setIfInBounds k x })
  ∧ (activeMask w ≠ 0 → n = 0x050 → core { c with heapBase := x })
  ∧ (activeMask w ≠ 0 → n = 0x051 → core { c with heapLimit := x })
  ∧ (activeMask w ≠ 0 → n = 0x052 → core { c with heapOffset := x })

/-- Access to a privileged special register from user code raises `PRIV`, and so does a user `SETSR` to `WS`, whether or not a
lane is active (R59, R60, R81). -/
def Obligations.PrivilegedRegisters : Prop := ∀ (s : State) (w : Wave) (r : Reg) (n : BitVec 16),
  s.wave s.cur = some w → w.wsPriv = false →
  (srAccess n.toNat = .privRw → trapsAt (.getsr r n) s w .priv 0 0 ∧ trapsAt (.setsr r n) s w .priv 0 0)
  ∧ (srAccess n.toNat = .status → trapsAt (.setsr r n) s w .priv 0 0)

/-- The control transfers complete: `pc` and, for `CALL` and `CALLR`, `LR` change as R133 says, and nothing else of the wave;
a taken branch gives its trace packet (R439). A computed target with bits [1:0] not both zero raises `ALIGN` at the instruction
with the target as its address (R71). -/
def Obligations.ControlTransfers : Prop := ∀ (s : State) (w : Wave), s.wave s.cur = some w →
  (∀ i t lr, controlRow w i = some (t, lr) → goesTo i s w { w.after with lr := lr } t)
  ∧ (∀ a : Pair, (pairLane w.regs a (lowestLane w.exec)).extractLsb' 0 2 ≠ 0 →
    trapsAt (.callr a) s w .align 0 (pairLane w.regs a (lowestLane w.exec))
    ∧ trapsAt (.jmpr a) s w .align 0 (pairLane w.regs a (lowestLane w.exec)))
  ∧ (w.lr.extractLsb' 0 2 ≠ 0 → trapsAt .ret s w .align 0 w.lr)

/-- While the mask stack lies in hardware, the divergence instructions complete and change `EXEC`, the stack and `pc` as R135
says, and nothing else. A push at depth 64 raises `STACK_DEPTH` with no change to the stack or `EXEC` (R65). -/
def Obligations.Divergence : Prop := ∀ (s : State) (w : Wave), s.wave s.cur = some w →
  (∀ i e m k t, w.depth = w.masks.length → w.depth ≤ 16 → divergeRow w i = some (e, m, k, t) →
    goesTo i s w { w.after with exec := e, masks := m, kinds := k, depth := m.length } (t.map fun x => (x, 5)))
  ∧ ∀ off : Off24, 64 ≤ w.depth →
    trapsAt (.ifLanes off) s w .stackDepth 0 0 ∧ trapsAt (.loopLanes off) s w .stackDepth 0 0

/-- `TRAP` with no active lane changes nothing, and else traps `TRAP_INSN` with its active lanes and its code; `BRK` traps
`BREAKPOINT` with `EXEC` and its code (R168). -/
def Obligations.TrapInstructions : Prop := ∀ (s : State) (w : Wave) (code : BitVec 16), s.wave s.cur = some w →
  (activeMask w = 0 → exec (.trap code) s = .next ((cold s s).onlyWave w.after))
  ∧ (activeMask w ≠ 0 → trapsAt (.trap code) s w .trapInsn (activeMask w) (zext64 code))
  ∧ trapsAt (.brk code) s w .breakpoint w.exec (zext64 code)

/-- A trap that the context handles, with no log entry open, saves the context image and the shadow sets and starts the
handler in the same slot as R209 says; no other wave changes, and no block, unit or queue (R208, R214). -/
def Obligations.HandlerEntry : Prop := ∀ (s s₁ : State) (k : Nat) (w : Wave) (t : TrapInfo),
  w.log = [] → w.trapLog = 0 → handles s k w t.cause →
  let who := s.whoOf k w
  let saved : Wave := { w with
    wsCause := BitVec.ofNat 8 t.cause.code, wsPast := 0, trapCause := BitVec.ofNat 8 t.cause.code, trapPc := w.pc,
    trapLanes := t.lanes, trapAddr := t.addr, owed := [], wait := .none, heldTrap := none, answers := [],
    watchHit := none, skipBreak := false, mxCheck := if t.cause = .mxCheck then none else w.mxCheck }
  s.saveImage k saved (s.saveArea who.pav who.ctx k) t.cause.code = some s₁ →
  ∃ h, (s.raiseTrap k w t).wave k = some h ∧ inHandler s k w h t
    ∧ (∀ k' ≠ k, (s.raiseTrap k w t).wave k' = s₁.wave k')
    ∧ (s.raiseTrap k w t).blocks = s₁.blocks ∧ (s.raiseTrap k w t).units = s₁.units ∧ (s.raiseTrap k w t).pavs = s₁.pavs

/-- With no log entry open, a trap terminates the context, with its cause and `TRAPPC` in the event, where FLAGS.TERMINATE is 1,
where a handler already runs, or where the TRAPMASK bit of its cause is 0 (R208, R430, R454); where the context's descriptor lies
on a poisoned line it is consumed poison with SOURCE 0 (R429, R430, assumption 60). A trap detected while log entries are open is
held: the wave stops at its instruction, and nothing else changes (R207). -/
def Obligations.TrapTermination : Prop := ∀ (s : State) (k : Nat) (w : Wave) (t : TrapInfo),
  (w.log = [] → t.cause ≠ .poison → s.descPoison (s.whoOf k w).pav (s.whoOf k w).ctx = none →
    let who := s.whoOf k w
    ((t.cause = .breakpoint ∨ t.cause = .step ∨ t.cause = .watchpoint) → s.attached who.core who.pav who.ctx = false) →
    s.ctxField who.pav who.ctx 124 1 / 8 % 2 = 1 ∨ w.handler.isSome
      ∨ s.ctxField who.pav who.ctx 120 4 / 2 ^ t.cause.code % 2 = 0 →
    s.raiseTrap k w t = s.terminate who.pav who.ctx t.cause.code w.pc)
  ∧ (∀ bad, w.log = [] → t.cause ≠ .poison → s.descPoison (s.whoOf k w).pav (s.whoOf k w).ctx = some bad →
    s.raiseTrap k w t = s.consumePoison (s.whoOf k w).core (s.whoOf k w).pav (s.whoOf k w).ctx 0 bad w.pc)
  ∧ (w.log ≠ [] → s.raiseTrap k w t = s.setWave k { w with heldTrap := some t, wait := .log, answers := [] })

/-- `RTE` raises `PRIV` from user code and `ILLEGAL_OPERAND` outside a handler (R168). In a handler, from an image that it can
read, it ends the context where the image breaks a rule of R217 or RETPC is misaligned (R208); else the wave goes on at RETPC with
the registers, predicates, masks, modes and links of the image, the status that it was saved with, and the log entries whose LOG
bits are set open again (R215, R217); the instruction counts (R440), and where the handler stepped the wave traps `STEP` there
(R218). -/
def Obligations.ReturnFromTrap : Prop := ∀ (s : State) (w : Wave), s.wave s.cur = some w →
  let who := s.whoOf s.cur w
  (w.wsPriv = false → exec .rte s = .next (s.raiseTrap s.cur w { cause := .priv, lanes := 0, addr := 0 }))
  ∧ (w.wsPriv = true → w.handler = none →
      exec .rte s = .next (s.raiseTrap s.cur w { cause := .illegalOperand, lanes := 0, addr := 0 }))
  ∧ ∀ (saved : SavedWave) (im : SavedImage), w.wsPriv = true → w.handler = some saved →
    let area := s.saveArea who.pav who.ctx s.cur
    let retained := (retainedRows saved.log).length
    areaReads s who area 0 108 im.head → areaReads s who area 256 2112 im.mid →
    (¬ imageLegal im w.gbudget.toNat retained → s.descPoison who.pav who.ctx = none →
      exec .rte s = .next (s.terminate who.pav who.ctx Cause.illegalOperand.code w.pc))
    ∧ (imageLegal im w.gbudget.toNat retained → fieldOf im.head 0 8 % 4 ≠ 0 → s.descPoison who.pav who.ctx = none →
      exec .rte s = .next (s.terminate who.pav who.ctx Cause.align.code w.pc))
    ∧ (imageLegal im w.gbudget.toNat retained → fieldOf im.head 0 8 % 4 = 0 → imageReads s who area saved im →
      ∃ w', restoredAs w w' saved im
        ∧ let t := ((s.setWave s.cur w').trace s.cur who.pav who.ctx w'.pc 4).count who.core who.pav who.ctx 1 1
          exec .rte s = .next (if w.wsStep then
            t.takeTrap s.cur w' { cause := .step, lanes := activeMask w, addr := 0 } w.pc w'.pc 0 else t))

/-- A word whose opcode is unassigned raises `ILLEGAL_OPCODE`, and a word with a field outside its kind or range raises
`ILLEGAL_OPERAND` (`PRIV` first for `RTE` from user code), with no effect (R75, R80, R81). -/
def Obligations.IllegalWords : Prop := ∀ (s : State) (w : Wave) (x : Word), s.wave s.cur = some w →
  (decodeGyrix x = .error .unassignedOpcode → trapsAt (.illegalInstructionWord x) s w .illegalOpcode 0 0)
  ∧ (decodeGyrix x = .error .fieldKind →
      trapsAt (.illegalInstructionWord x) s w (if x.extractLsb' 24 8 = 0xFA ∧ w.wsPriv = false then .priv else .illegalOperand)
        0 0)

/-- The storage shapes (assumption 27). An ALU instruction of R93 to R131 leaves every register the tag that R49 to R52 give for
the shape of its table (`EXPAND` always G; a partial write always G; a write to half of an affine pair separates it), and the
wave's `GUSED` is its count of rows; where the rows that it would hold, retained ones too, pass `GBUDGET`, pairs and SR results
counted as R51 says, it raises `SHAPE_BUDGET` with the lanes it would have written and has no other effect (R54, R132, R212).
The other instructions that write registers trap alike where with all 256 rows they would leave more than `GBUDGET`; where they
complete, their registers have the shape of R50, R160 or R361. `SETSR` of a `GBUDGET` that is no multiple of 8, below 8, above
256 or below `GUSED` raises `ILLEGAL_OPERAND` (R55). -/
def Obligations.RowsAndShapes : Prop := ∀ (s : State) (w : Wave), s.runs w → w.replay = none →
  (∀ (i : Instr) (x : LaneRow) (seed : Word) (sr : Bool), writeRow s w i = some (x, seed, sr) →
    let k := shapeLeft x sr (tableShape w i)
    let charged := rowsAfter w.regs x (if sr then .g else k) + (retainedRows w.log).length
    (x.lanes ≠ 0 → w.gbudget.toNat < charged → trapsAt i s w .shapeBudget x.lanes 0)
    ∧ (w.log = [] → x.lanes = 0 ∨ charged ≤ w.gbudget.toNat →
      ∃ R, exec i s = .next (s.onlyWave { w.after with regs := R, rseed := seed }) ∧ lanesWritten w.regs R x.lanes x.ty x.dest x.value
        ∧ (∀ r : Reg, (rd R r).tag = tagAfter w.regs x k r)
        ∧ ({ w.after with regs := R } : Wave).gused = rowsAfter w.regs x k))
  ∧ (∀ (i : Instr) (lanes : Word) (rs : List Reg) (sh : Option Shape) (t : State) (w' : Wave),
    otherRow s w i = some (lanes, rs, sh) →
    ((∃ d a k, i = .acld d a k) ∨ (∃ d a b, i = .leafgather d a b) → (s.unit (pairHere s)).owner = some w.block) →
    (w.log = [] → rowCount w.regs ≤ w.gbudget.toNat → exec i (s.onlyWave { w with gbudget := 256 }) = .next t →
      t.wave s.cur = some w' → w.gbudget.toNat < rowCount w'.regs → trapsAt i s w .shapeBudget lanes 0)
    ∧ (exec i s = .next t → t.wave s.cur = some w' → w'.retired = true → lanes ≠ 0 → ∀ r ∈ rs,
      (rd w'.regs r).tag = match sh with
        | some k => if lanes = 0xFFFFFFFF ∧ k = .u then 0 else 2
        | none => if lanes == 0xFFFFFFFF && (List.range 32).all (fun n => lane w'.regs r n == 0) then 0 else 2))
  ∧ ∀ a : Reg, activeMask w ≠ 0 → (lane w.regs a (lowestLane (activeMask w))).toNat % 8 ≠ 0
      ∨ (lane w.regs a (lowestLane (activeMask w))).toNat < 8 ∨ 256 < (lane w.regs a (lowestLane (activeMask w))).toNat
      ∨ (lane w.regs a (lowestLane (activeMask w))).toNat < w.gused →
    trapsAt (.setsr a 0x00D) s w .illegalOperand 0 0

/-- A load whose accesses nothing stops completes: each active lane gets its element, extended as its type says, from the
bytes that the wave reads (R151, R153); a load from the global window that its core's L1 does not serve owes its registers until
its data arrives (R62, R68). A byte reads as the wave's own newest store to it, else as its home holds it; a line of a page that
the L1 serves may read as the L1 took it (R178), and under the read-only hint each aligned word may be the one of the launch
(R84). An acquire first performs the stores that a release at block scope precedes, and at pair scope or wider empties the
core's L1 (R184 to R186). Nothing else changes but the L1, what is counted and what is watched (R437, R440). The L1 as the model
has it and what it owes are assumptions 11 and 13, marked stores and what performs them assumption 10, and the launch's view of
memory assumption 14. -/
def Obligations.LoadResults : Prop :=
  (∀ (s : State) (core : Nat) (w : Wave) (x : Span) (k : Nat), s.readByte core w x k = s.loadByte w.uid k
    ∨ (x.cached = true ∧ ¬ underWay s w.uid k
      ∧ ((wmCH w.wm ≠ 2 ∧ ∃ c, s.l1Line core (k / 64) = some c ∧ s.readByte core w x k = (c.bytes[k % 64]?).getD 0)
        ∨ (wmCH w.wm = 2 ∧ ∃ m, s.launchMemory w = some m ∧ s.readByte core w x k = m.read k))))
  ∧ (∀ (s : State) (core : Nat) (w : Wave) (x : Span) (q : Nat), wmCH w.wm = 2 → (∀ j < 4, ¬ underWay s w.uid (4 * q + j)) →
    (∀ j < 4, s.readByte core w x (4 * q + j) = s.mem.read (4 * q + j))
      ∨ ∃ m, s.launchMemory w = some m ∧ ∀ j < 4, s.readByte core w x (4 * q + j) = m.read (4 * q + j))
  ∧ (∀ (s : State) (who : Who) (wm : Word) (l : List LaneAccess), let t := s.orderLoad who wm l
    (wmMO wm = 0 ∨ wmMO wm = 2 ∨ wmSC wm = 0 ∧ wmMO wm ≠ 4 ∨ ordersAny l = false → t = s)
    ∧ (wmMO wm = 1 ∨ wmMO wm = 3 ∨ wmMO wm = 4 → ordersAny l = true → onlyMemory s t
      ∧ (wmSC wm ≠ 0 → ∀ b, s.block who.block = some b → ∀ p ∈ t.stores, p.released = true → p.agent ∉ b.agents)
      ∧ (2 ≤ (wmSC wm).toNat ∨ wmMO wm = 4 → ∀ n, t.l1Line who.core n = none)))
  ∧ ∀ (s : State) (w : Wave) (i : Instr) (d : Reg) (x : Where),
  let t := wmET w.wm
  let who := s.whoOf s.cur w
  let act := activeMask w
  let n := accessSize t
  let l := s.whereAccesses who .read act x n
  s.runs w → w.roomFor 4 → accessRow w i = some (true, d, x) → setMem t = true → widened t d = true → clear s .read l →
  (x.own = true → s.rangeHeld who l = false) →
  if act = 0 then exec i s = .next (s.onlyWave w.after)
  else
    let s₁ := s.orderLoad who w.wm l
    let lines := s₁.missedLines who.core w.wm l
    ∃ R, loaded w.regs R act t d (fun k => s₁.readSpans who.core w (spansOf l k)) ∧
      exec i s = .next (((s₁.countBytes who ((if x.uniform then 1 else l.length) * n) 0 lines.length).fillL1 who.core
          (l1Takes w.wm l) (accessLines l)).setWave s.cur
        { w.after with
          regs := R, owed := w.owed ++ (if lines.isEmpty then [] else [{ pc := w.pc, regs := regsOf t d, lines := lines }]),
          watchHit := if x.own then w.watchHit else (s.watch s.cur w true false (lanesWatched l n)).watchHit })

/-- A store whose accesses nothing stops completes. The wave reads its bytes back, the highest lane's where lanes overlap
(R151, R153, R155, R178); every other byte reads as before, to the wave and, where no older store of the wave to it is under
way, to everyone (R190). Under the full mask a store of a U value to a U address makes one access (R155). Nothing else changes
but what is counted and watched. -/
def Obligations.StoreResults : Prop := ∀ (s : State) (w : Wave) (i : Instr) (d : Reg) (x : Where),
  let t := wmET w.wm
  let who := s.whoOf s.cur w
  let act := activeMask w
  let n := accessSize t
  let all := s.whereAccesses who .write act x n
  let l := if act = 0xFFFFFFFF ∧ x.uniform ∧ w.storesU t d then all.take 1 else all
  let cells := storeCells w t d l
  s.wave s.cur = some w → accessRow w i = some (false, d, x) → setMem t = true → widened t d = true → clear s .write all →
  (x.own = true → s.rangeHeld who l = false) →
  if act = 0 then exec i s = .next (s.onlyWave w.after)
  else ∃ s₁, onlyMemory s s₁ ∧ (∀ k, s₁.loadByte w.uid k = stored (s.loadByte w.uid) cells k)
    ∧ (∀ u k, u ≠ w.uid → ¬ underWay s w.uid k → (∀ c ∈ cells, c.1 ≠ k) → s₁.loadByte u k = s.loadByte u k)
    ∧ (∀ line ∈ s₁.poisoned, line ∈ s.poisoned)
    ∧ exec i s = .next ((s₁.countBytes who 0 (l.length * n) 0).setWave s.cur
        { w.after with watchHit := if x.own then w.watchHit else (s.watch s.cur w false true (lanesWatched l n)).watchHit })

/-- An atomic whose accesses nothing stops completes: the active lanes act one after the other on memory as the wave's earlier
stores to the bytes, and the stores between the replicas of a DR page, leave it; each lane gets what it read and stores its
new value (R161, R162, R191). -/
def Obligations.AtomicResults : Prop := ∀ (s : State) (w : Wave) (i : Instr) (ok : ETy → Bool) (d : Reg) (a : Pair) (b : Reg)
    (op : DWord → DWord → DWord → DWord),
  let t := wmET w.wm
  let who := s.whoOf s.cur w
  let act := activeMask w
  let n := accessSize t
  let l := s.laneAccesses who .atomic true act (pairLane w.regs a) n
  let s₀ := ((s.orderStore who w.wm l).orderLoad who w.wm l).beforeAtomic w.uid (l.flatMap LaneAccess.ok)
  let r := atomicRun n (fun k m => op m (laneT w.regs t b k) (laneT w.regs t d k)) s₀.mem.read (l.map fun y => (y.lane, y.ok))
  s.runs w → w.roomFor 2 → atomicRow w i = some (ok, d, a, b, op) → ok t = true → widened t d = true → widened t b = true →
  clear s .atomic l →
  if act = 0 then exec i s = .next ((cold s s).onlyWave w.after)
  else ∃ s₁ R, onlyMemory s s₁ ∧ s₁.stores = s₀.stores ∧ (∀ k, s₁.mem.read k = r.2 k)
    ∧ lanesWritten w.regs R act t d (fun k => (Assoc.find r.1 k).getD 0)
    ∧ exec i s = .next ((cold s (s₁.countBytes who (l.length * n) (l.length * n) 0)).setWave s.cur
        { w.after with regs := R, watchHit := (s.watch s.cur w true true (lanesWatched l n)).watchHit })

/-- The checks of R152 on loads, stores and atomics: the first kind of failure that any lane shows traps, with every lane that
fails that check and the address of the lowest of them, and no lane's access is performed. (A translation fault that the driver
may still resolve is no trap, R210.) -/
def Obligations.AccessTraps : Prop := ∀ (s : State) (w : Wave) (i : Instr) (l : List LaneAccess) (a : LaneAccess) (f : AccFail),
  s.wave s.cur = some w → judged s w i = some l → a ∈ l → a.spans = .error f → (∀ va, f ≠ .fault va) →
  (∀ b ∈ l, ∀ g, b.spans = .error g → f.rank ≤ g.rank) →
  (∀ b ∈ l, ∀ g, b.spans = .error g → g.rank = f.rank → a.lane ≤ b.lane) →
  ∃ lanes, trapsAt i s w f.cause lanes a.va
    ∧ ∀ n < 32, lanes.getLsbD n = true ↔ ∃ b ∈ l, b.lane = n ∧ ∃ g, b.spans = .error g ∧ g.rank = f.rank

/-- `PREF` changes nothing but `pc` and lines in the L1, of its lanes' addresses those that may be read and cached and are clean, and
under the bypass hint none (R156, R179); a relaxed `FENCE` changes nothing but `pc` (R163). Any other `FENCE` completes, with bit
[6] once the engine accesses that the wave started are performed, at device scope or wider the residency reads under way of every
wave too (R380), and goes round once more where it sent the partner samples. A release at pair scope or wider leaves
none of the wave's stores under way, those to UO pages only under bit [7]; at block scope it marks them, and an acquire by an
agent of the block performs what is marked (R182 to R186). Order sc at device scope or wider leaves no DR store of the die between
the replicas, and with bit [6] nothing in the tile stores (R163, R191, R192). A release leaves the agent reading what it read
before, and every other agent wherever no store of the agent was under way (R178, R190). That a block-scope release only marks and
an acquire performs what is marked is assumption 10; what the L1 takes is assumption 13. -/
def Obligations.FenceResults : Prop := ∀ (s : State) (w : Wave), s.wave s.cur = some w →
  let who := s.whoOf s.cur w
  (∀ (a : Pair) (imm : BitVec 8),
    let at_ (n : Nat) : DWord := pairLane w.regs a n + BitVec.ofInt 64 (imm.toInt * 64)
    let lines := s.prefLines who (activeMask w) at_
    exec (.pref a imm) s = .next ((if wmCH w.wm = 3 then s else s.fillL1 who.core true lines).onlyWave w.after)
    ∧ ∀ k, k ∈ lines ↔ ∃ n < 32, (activeMask w).getLsbD n = true ∧ (at_ n).toNat / 64 * 64 < globalEnd
      ∧ ∃ l, s.resolve who .read false ((at_ n).toNat / 64 * 64) 64 = .ok l
        ∧ (∀ x ∈ l, x.cached = true ∧ s.spanPoisoned x = false) ∧ k ∈ spanLines l)
  ∧ ∀ (order scope : BitVec 3) (engines unordered : Bool),
    let i : Instr := .fence order scope engines unordered
    let wide := order = 4 ∧ 4 ≤ scope.toNat
    (order = 0 → exec i s = .next (s.onlyWave w.after))
    ∧ (order ≠ 0 → engines = true → s.enginesOwed w.uid = true →
      exec i s = .next (s.onlyWave { w.atIssue with wait := .engines }))
    ∧ (order ≠ 0 → engines = true → 4 ≤ scope.toNat → s.enginesOwed w.uid = false → s.samplersOwed s.cur = true →
      exec i s = .next (s.onlyWave { w.atIssue with wait := .sampling }))
    ∧ (order ≠ 0 → (engines = true → s.enginesOwed w.uid = false ∧ (4 ≤ scope.toNat → s.samplersOwed s.cur = false)) →
      ∃ t : State, exec i s = .next ((cold s t).setWave s.cur
        (if wide ∧ engines = true ∧ t.samplesSent = true then { w.atIssue with wait := .engines, answers := [] } else w.after))
      ∧ t = { s with mem := t.mem, stores := t.stores, poisoned := t.poisoned, filters := t.filters, drQueue := t.drQueue,
                     l1 := t.l1, grids := t.grids, coverage := t.coverage, fabric := t.fabric, out := t.out, fresh := t.fresh }
      ∧ sameGrids s t
      ∧ (¬ wide → onlyMemory s t) ∧ (order = 2 → ∀ k, t.loadByte w.uid k = s.loadByte w.uid k)
      ∧ (2 ≤ order.toNat → 2 ≤ scope.toNat → ∀ p ∈ t.stores, p.agent = w.uid → p.unordered = true ∧ unordered = false)
      ∧ (order ≠ 2 → scope ≠ 0 → ∀ b, s.block w.block = some b → ∀ p ∈ t.stores, p.released = true → p.agent ∉ b.agents)
      ∧ (wide → ∀ q ∈ t.drQueue, q.1 ≠ dieOf (coreOf s.cur))
      ∧ (wide → engines = true → ∀ die < 2, (t.cover die).store = [])
      ∧ (wide → engines = false → t.coverage = s.coverage))
    ∧ (∀ uid : Nat,
      let t := s.release uid unordered
      onlyMemory s t ∧ (∀ p ∈ t.stores, p ∈ s.stores ∧ (p.agent = uid → p.unordered = true ∧ unordered = false))
        ∧ (∀ p ∈ s.stores, p.agent ≠ uid → p ∈ t.stores) ∧ (∀ k, t.loadByte uid k = s.loadByte uid k)
        ∧ ∀ u k, u ≠ uid → ¬ underWay s uid k → t.loadByte u k = s.loadByte u k)
    ∧ (scope = 0 → s.releaseAt who scope unordered = s)
    ∧ (scope = 1 → s.inPair who = false → s.releaseAt who scope unordered = { s with stores := s.stores.map fun p =>
        if p.agent = w.uid ∧ (unordered = true ∨ s.mixed w.uid = true ∨ p.unordered = false) then { p with released := true }
        else p })
    ∧ ((scope = 1 ∧ s.inPair who = true) ∨ 2 ≤ scope.toNat → s.releaseAt who scope unordered = s.release w.uid unordered)

/-- `LDZ` and `STZ` under an empty `EXEC` change nothing. Else, on a structure whose bytes nothing stops and which holds the
chunk (R157, R158): `LDZ` gives each active lane its element, 0 where the mask has no bit for it (R160); `STZ` stores the mask
bits of the chunk, the non-zero elements behind those stored before, and their number (R159), and changes no other byte. A
structure in a scratch window is assumption 53. -/
def Obligations.ChunkResults : Prop := ∀ (s : State) (w : Wave) (d : Reg) (a : Pair) (b : Reg) (h : Chunked) (sp : List Span),
  let who := s.whoOf s.cur w
  let base := pairLane w.regs a w.leadLane
  let c := (lane w.regs b w.leadLane).toNat
  let act := activeMask w
  let head := 8 + (h.count + 7) / 8
  let len := (Nat.min h.count (32 * c + 32) + 7) / 8
  let s₀ := s.orderLoad who w.wm [s.oneLane who .read false 32 base 8]
  s.runs w → w.roomFor 2 → wmET w.wm = .bf16 →
  (w.exec = 0 → exec (.ldz d a b) s = .next ((cold s s).onlyWave w.after) ∧ exec (.stz d a b) s = .next ((cold s s).onlyWave w.after))
  ∧ (w.exec ≠ 0 → base.toNat % 8 = 0 → 32 * c < h.count → h.count < 2 ^ 16 → h.nz < 2 ^ 16 →
    (∀ (m : List Span) (el : Nat → List Span),
      let here (n : Nat) : Bool := act.getLsbD n && decide (32 * c + n < h.count) && decide (h.mask / 2 ^ (32 * c + n) % 2 = 1)
      clearAt s₀ w .read base 8 sp → readAt s₀ w sp = h.count + h.nz * 2 ^ 16 + h.cap * 2 ^ 32 →
      head + 2 * h.nz ≤ h.cap → clearAt s₀ w .read (base + 8) len m → readAt s₀ w m = h.mask →
      (∀ n < 32, here n = true →
        clearAt s₀ w .read (base + BitVec.ofNat 64 (head + 2 * bitsBelow h.mask (32 * c + n))) 2 (el n)) →
      ∃ s₁ R hit, (act = 0 → s₁ = s₀) ∧ (act ≠ 0 → ∃ n, s₁ = s₀.countBytes who n 0 0)
        ∧ exec (.ldz d a b) s = .next ((cold s s₁).setWave s.cur { w.after with regs := R, watchHit := hit })
        ∧ lanesWritten w.regs R act .n32 d fun n => if here n then BitVec.ofNat 64 (readAt s₀ w (el n)) else 0)
    ∧ (∀ m v z : List Span,
      let x (n : Nat) : Nat := if act.getLsbD n ∧ 32 * c + n < h.count then (lane w.regs d n).toNat % 2 ^ 16 else 0
      let vals := ((List.range 32).map x).filter fun y => y ≠ 0
      let maskAt := base + 8 + BitVec.ofNat 64 (4 * c)
      clearAt s w .read base 8 sp → readAt s w sp = h.count + h.nz * 2 ^ 16 + h.cap * 2 ^ 32 →
      head + 2 * (h.nz + vals.length) ≤ h.cap → clearAt s w .write maskAt (len - 4 * c) m →
      (h.count < 32 * c + 32 → h.count % 8 ≠ 0 → ∃ st, clearAt s w .read (maskAt + BitVec.ofNat 64 (len - 4 * c - 1)) 1 st) →
      (if vals = [] then v = [] else clearAt s w .write (base + BitVec.ofNat 64 (head + 2 * h.nz)) (2 * vals.length) v) →
      clearAt s w .atomic (base + 2) 2 z →
      ∃ s₁ n hit, onlyMemory s s₁
        ∧ exec (.stz d a b) s = .next ((cold s (s₁.countBytes who 8 n 0)).setWave s.cur { w.after with watchHit := hit })
        ∧ ((m ++ v ++ z).Pairwise (fun y y' => y.key + y.len ≤ y'.key ∨ y'.key + y'.len ≤ y.key) →
          (∀ y ∈ m ++ v ++ z, y.ord ≠ 3) →
          (∀ k < 32, 32 * c + k < h.count → (readAt s₁ w m / 2 ^ k % 2 = 1 ↔ x k ≠ 0))
          ∧ s₁.loadSpans w.uid v = vals.flatMap (fun y => leBytes y 2) ∧ readAt s₁ w z = (h.nz + vals.length) % 2 ^ 16
          ∧ ∀ k, (∀ y ∈ m ++ v ++ z, k < y.key ∨ y.key + y.len ≤ k) → s₁.loadByte w.uid k = s.loadByte w.uid k)))

/-- `PUBLISH` under an empty `EXEC` changes nothing. At an address whose page is a publish window it releases the wave's
accesses and exchanges the window's backings; on any other mapped page, and outside the global window, it raises
`ACCESS_VIOLATION` with the address (R164, R301). -/
def Obligations.Publish : Prop := ∀ (s : State) (w : Wave) (a : Pair), s.wave s.cur = some w →
  let who := s.whoOf s.cur w
  let va := pairLane w.regs a (lowestLane w.exec)
  (w.exec = 0 → exec (.publish a) s = .next ((cold s s).onlyWave w.after))
  ∧ (w.exec ≠ 0 → globalEnd ≤ va.toNat → trapsAt (.publish a) s w .accessViolation 0 va)
  ∧ (∀ p, w.exec ≠ 0 → va.toNat < globalEnd → s.translate who.core who.pav who.ctx va.toNat = .ok p →
    (p.pub = false → trapsAt (.publish a) s w .accessViolation 0 va)
    ∧ (p.pub = true → ∃ sel : List Nat, exec (.publish a) s =
        .next ((cold s { (s.release w.uid false) with sel := sel }).setWave s.cur w.after)
      ∧ ∀ f, f ∈ sel ↔ if f = p.frame then f ∉ s.sel else f ∈ s.sel))

/-- An arrival on a completion object in the wave's allocation completes: it acts on the object as R166 says, gives its result
to every lane of `EXEC`, releases the wave's accesses, and lets the block's waves that wait for a phase look again (R167). A
CARRY that would overflow raises `ILLEGAL_OPERAND`. `WAITPH` completes once PHASE differs from its operand, as an acquire at block
scope (R186), and else waits. -/
def Obligations.CompletionObjects : Prop := ∀ (s : State) (w : Wave), s.runs w → w.roomFor 2 →
  (∀ (i : Instr) (d a : Reg) (t : Word), arriveRow w i = some (d, a, t) →
    (w.exec = 0 → exec i s = .next ((cold s s).onlyWave w.after))
    ∧ ∀ key, w.exec ≠ 0 → s.objectKey w.block (lane w.regs a w.leadLane).toNat = .ok key →
      let o := s.object key
      (o.pendarr = 0 → o.carry = 65535 → trapsAt i s w .illegalOperand 0 0)
      ∧ (0 < o.pendarr ∨ o.carry ≠ 65535 → ∃ s₁ R, onlyMemory (s.release w.uid false) s₁
        ∧ s₁.stores = (s.release w.uid false).stores ∧ s₁.object key = (arrival o t).2
        ∧ (∀ k, k < key ∨ key + 14 ≤ k → s₁.mem.read k = (s.release w.uid false).mem.read k)
        ∧ lanesWritten w.regs R w.exec .n32 d (fun _ => zext64 (arrival o t).1)
        ∧ exec i s = .next ((cold s (s₁.wake w.block .phase)).setWave s.cur { w.after with regs := R })))
  ∧ ∀ (a b : Reg) key, s.objectKey w.block (lane w.regs a w.leadLane).toNat = .ok key →
    if (s.object key).phase = lane w.regs b w.leadLane then
      exec (.waitph a b) s = .next (s.onlyWave { w.atIssue with wait := .phase })
    else exec (.waitph a b) s = .next ((cold s (s.acquireAt (s.whoOf s.cur w) 1)).onlyWave w.after)

/-- The last wave of a block to arrive at a barrier opens it: it goes on, so does every wave that waits there (of those that a
step or a watchpoint does not trap; on a halted core once that runs again, R221, R438), the count resets, and no other wave
changes. Any other arrival waits. Either way the wave's accesses are released (R150). -/
def Obligations.Barriers : Prop := ∀ (s : State) (w : Wave) (n : BitVec 4) (x : Block),
  s.wave s.cur = some w → s.block w.block = some x →
  let arrived := (x.barriers[n.toNat]?).getD []
  let s₁ := s.release w.uid false
  ((∀ k ∈ x.alive, k = s.cur ∨ k ∈ arrived) →
    (∀ k ∈ arrived, k ≠ s.cur → ∃ v, s.wave k = some v ∧ v.wait = .barrier n ∧ v.wsStep = false ∧ v.watchHit = none) →
    ∃ t, exec (.bar n) s = .next t ∧ t.wave s.cur = some w.after
      ∧ (∀ k ∈ arrived, k ≠ s.cur → t.wave k = (s.wave k).map fun v =>
          if (s.core (coreOf k)).halted then { v with wait := .passed } else wentOn v)
      ∧ (∀ k ∉ arrived, k ≠ s.cur → t.wave k = s.wave k)
      ∧ t.block w.block = some { x with barriers := x.barriers.setIfInBounds n.toNat [] }
      ∧ t.mem = s₁.mem ∧ t.stores = s₁.stores)
  ∧ ((∃ k ∈ x.alive, k ≠ s.cur ∧ k ∉ arrived) →
    let arrived' := if s.cur ∈ arrived then arrived else arrived ++ [s.cur]
    exec (.bar n) s = .next ((cold s (s₁.setBlock w.block { x with barriers := x.barriers.setIfInBounds n.toNat arrived' })).setWave
      s.cur { w.atIssue with wait := .barrier n, answers := [] }))

/-- With no active lane `SPAWN` and `ENQ` change nothing. `SPAWN` of readable, well-formed records to created record queues that
have room for all of them appends them in lane order; `ENQ` of readable items gives each lane its status and appends where it is
0 (R144, R145). Both release the wave's accesses first. An append puts the 64 bytes at the tail's place in the ring and advances
TAIL, and no other byte, queue or register changes (R398, R399). That a full queue answers 1 before an ill-formed item answers 3
is assumption 28, and records read through any window are 32. -/
def Obligations.QueueAppends : Prop := ∀ (s : State) (w : Wave) (a : Pair) (b d : Reg), s.runs w → w.roomFor 2 →
  let pav := (s.whoOf s.cur w).pav
  let recs := laneRecords s w a b
  let r := enqueueRun pav (s.release w.uid false) recs
  recordsReadable s w a →
  (activeMask w = 0 →
    exec (.spawn a b) s = .next ((cold s s).onlyWave w.after) ∧ exec (.enq d a b) s = .next ((cold s s).onlyWave w.after))
  ∧ (activeMask w ≠ 0 →
    (∀ y ∈ recs, isCreated s pav y.2.1 = true ∧ s.itemQueue pav y.2.1 = false ∧ recordOk y.2.2 = true) →
    (∀ q, s.queueCount pav q + (recs.filter fun y => y.2.1 == q).length ≤ s.queueCap pav q ∨ ∀ y ∈ recs, y.2.1 ≠ q) →
    exec (.spawn a b) s =
      .next ((cold s (recs.foldl (fun t y => t.appendEntry pav y.2.1 y.2.2) (s.release w.uid false))).setWave s.cur w.after))
  ∧ (activeMask w ≠ 0 → ∃ R, exec (.enq d a b) s = .next ((cold s r.1).setWave s.cur { w.after with regs := R })
    ∧ lanesWritten w.regs R (activeMask w) .n32 d (fun n => BitVec.ofNat 64 ((Assoc.find r.2 n).getD 0)))
  ∧ ∀ (t : State) (p q : Nat) (x : Line),
    let u := t.appendEntry p q x
    let at_ := t.queueRing p q + 64 * ((t.queue p q).tail.toNat % t.queueCap p q)
    u.queue p q = { t.queue p q with tail := (t.queue p q).tail + 1 } ∧ u.mem.readLE at_ 64 = x.toNat
      ∧ (∀ k, k < at_ ∨ at_ + 64 ≤ k → u.mem.read k = t.mem.read k)
      ∧ (∀ p' q', (p', q') ≠ (p, q) → u.queue p' q' = t.queue p' q') ∧ (∀ p' q', u.desc p' q' = t.desc p' q')
      ∧ u = { t with mem := u.mem, poisoned := u.poisoned, filters := u.filters, l1 := u.l1, pavs := u.pavs }

/-- `DEQ` under an empty `EXEC` changes nothing. From an item queue that holds an item, with no wave before it in the queue's
line, it takes the head item and writes its 16 words to the 16 registers at every lane of `EXEC`, whatever the guard; a queue
that is no created item queue raises `ILLEGAL_OPERAND` (R146). A head item on a poisoned line raises `POISON` and stays (R429). -/
def Obligations.Dequeue : Prop := ∀ (s : State) (w : Wave) (d q : Reg), s.runs w → w.roomFor 32 → d.toNat ≤ 240 →
  let pav := (s.whoOf s.cur w).pav
  let n := (lane w.regs q (lowestLane w.exec)).toNat
  let st := s.queue pav n
  let item := s.mem.readLE (s.queueRing pav n + 64 * (st.head.toNat % s.queueCap pav n)) 64
  (w.exec = 0 → exec (.deq d q) s = .next (s.onlyWave w.after))
  ∧ (w.exec ≠ 0 → (isCreated s pav n = false ∨ s.itemQueue pav n = false) → trapsAt (.deq d q) s w .illegalOperand 0 0)
  ∧ (w.exec ≠ 0 → isCreated s pav n = true → s.itemQueue pav n = true → st.tail ≠ st.head →
    (st.waiting = [] ∨ st.waiting.head? = some s.cur) →
    (∀ bad, s.headPoison pav n = some bad → exec (.deq d q) s =
      .next (s.raiseTrap s.cur w.atIssue { cause := .poison, lanes := w.exec, addr := 0, line := bad }))
    ∧ (s.headPoison pav n = none → ∃ R,
      exec (.deq d q) s = .next ((cold s (s.setQueue pav n { st with waiting := st.waiting.tail, head := st.head + 1 })).setWave
        s.cur { w.after with regs := R })
      ∧ pairsOk R ∧ (∀ r : Reg, (∀ k < 16, r ≠ regAt d k) → ∀ j < 32, lane R r j = lane w.regs r j)
      ∧ ∀ k < 16, ∀ j < 32, lane R (regAt d k) j =
          if w.exec.getLsbD j then BitVec.ofNat 32 (item / 2 ^ (32 * k)) else lane w.regs (regAt d k) j))

/-- While the mask stack lies in hardware, `EXIT` takes its active lanes out of `EXEC` and of every entry: the wave goes on
where a lane is left, and else releases its accesses, counts as having triggered, and ends (R139, R141). -/
def Obligations.Exits : Prop := ∀ (s : State) (w : Wave), s.wave s.cur = some w → w.depth = w.masks.length →
  let e := activeMask w
  let rest := w.exec &&& ~~~e
  let masks := w.masks.map fun x => entry (loWord x &&& ~~~e) (hiWord x &&& ~~~e)
  (rest ≠ 0 ∨ (∃ x ∈ masks, x ≠ 0) → exec .exit s = .next (s.onlyWave { w.after with exec := rest, masks := masks }))
  ∧ (rest = 0 → (∀ x ∈ masks, x = 0) → exec .exit s = .next ((cold s ((s.release w.uid false).triggerBlock w.block)).setWave s.cur
      { w.after with exec := 0, masks := masks, wait := .ending }))

/-- `TRIG` releases the wave's accesses and triggers its block; the first trigger of a block marks it and is counted by its
grid, and a later one changes nothing (R142, R408). `YIELD` leaves the wave the youngest of its quad, which does not select it in
the next step (R149). -/
def Obligations.TriggersAndYield : Prop := ∀ (s : State) (w : Wave), s.wave s.cur = some w →
  exec .trig s = .next ((cold s ((s.release w.uid false).triggerBlock w.block)).setWave s.cur w.after)
  ∧ exec .yield s = .next ({ s with fresh := s.fresh + 1 }.setWave s.cur { w.after with age := s.fresh, yielded := some s.steps })
  ∧ ∀ (t : State) (b : Nat) (x : Block), t.block b = some x →
    (x.triggered = true → t.triggerBlock b = t)
    ∧ (x.triggered = false → (t.triggerBlock b).block b = some { x with triggered := true }
      ∧ (∀ g, Assoc.find t.grids x.grid = some g →
        Assoc.find (t.triggerBlock b).grids x.grid = some { g with trigged := g.trigged + 1 }))

/-- Under an empty `EXEC` `SUSPEND` and `JOIN` change nothing. With a readable, well-formed record in the global window,
`SUSPEND` hands the record to the distributor of the wave's die and ends the wave; `JOIN`, an acquire and a release at device
scope, counts the join counter down as one atomic, hands the record over when it reaches 0, and ends the wave; a counter of 0
raises `ILLEGAL_OPERAND` (R148). -/
def Obligations.WaveEnds : Prop := ∀ (s : State) (w : Wave) (a : Pair) (sp : List Span), s.wave s.cur = some w →
  let va := pairLane w.regs a (lowestLane w.exec)
  let r := lineOf (s.loadSpans w.uid sp)
  let die := dieOf (coreOf s.cur)
  let s₁ := s.release w.uid false
  let done := { w.after with wait := .ending }
  (w.exec = 0 → exec (.suspend a) s = .next (s.onlyWave w.after) ∧ exec (.join a) s = .next (s.onlyWave w.after))
  ∧ (w.exec ≠ 0 → va.toNat < globalEnd → va.toNat % 64 = 0 → clearAt s w .read va 64 sp → recordOk r = true →
    exec (.suspend a) s = .next ((cold s (s₁.pushResume die (handed s w r))).setWave s.cur done)
    ∧ ∀ sp', clearAt s w .atomic (va + 16) 4 sp' →
      let s₂ := (s₁.acquireAt (s.whoOf s.cur w) 4).beforeAtomic w.uid sp'
      let n := leNat (s₂.homeBytes sp')
      let s₃ := s₂.engineStore (s.whoOf s.cur w).ctxKey (spanCells sp' (leBytes (n - 1) 4))
      (lineField r 16 4 = 0 ∨ n = 0 → trapsAt (.join a) s w .illegalOperand 0 0)
      ∧ (lineField r 16 4 ≠ 0 → n = 1 →
        exec (.join a) s = .next ((cold s (s₃.pushResume die (handed s w (lineSet r 16 4 0)))).setWave s.cur done))
      ∧ (lineField r 16 4 ≠ 0 → 1 < n → exec (.join a) s = .next ((cold s s₃).setWave s.cur done))
      ∧ (n ≠ 0 → (∀ x ∈ sp', x.ord ≠ 3) → sp'.Pairwise (fun x y => x.key + x.len ≤ y.key ∨ y.key + y.len ≤ x.key) →
        leNat (s₃.homeBytes sp') = n - 1))

/-- `CPYSET` writes one shadow register. `CPYGO`, once its checks pass and the channel and the range scoreboard have room,
releases the wave's accesses, gives every lane of `EXEC` the channel's next id and starts the transfer; one of no bytes retires
at once. `WAITID` completes for a retired id, waits for one that has not, and raises `ILLEGAL_OPERAND` for one that was not
given out (R286, R287, R289, R290, R292, R295). -/
def Obligations.Copies : Prop := ∀ (s : State) (w : Wave) (ch : BitVec 2), s.runs w → w.roomFor 2 →
  let core := coreOf s.cur
  let who := s.whoOf s.cur w
  let j := lowestLane w.exec
  (∀ (a : Pair) (reg : BitVec 3), exec (.cpyset a reg ch) s = .next (s.onlyWave (if w.exec = 0 then w.after else
    { w.after with shadow := w.shadow.setIfInBounds (8 * ch.toNat + reg.toNat) (pairLane w.regs a j) })))
  ∧ (∀ d : Reg, w.exec = 0 → exec (.cpygo d ch) s = .next ((cold s s).onlyWave w.after))
  ∧ (∀ (d : Reg) (w₀ : Wave) (s₁ : State) (t : Transfer) (x : Block) (h : Half), w.exec ≠ 0 →
    let s₀ := s.withRecords (copyRecords ch)
    s₀.wave s.cur = some w₀ → s₀.snapshot w₀ who ch.toNat = .ok (s₁, t) → s₁.copyChecks who t = .ok () →
    s₁.block w.block = some x → x.half core = some h →
    let queue := ((s₁.core core).chans[ch.toNat]?).getD []
    let t' := { t with id := copyNext h ch, range := if t.total = 0 then none else s₁.copyRange who t }
    queue.length < 16 → (t'.range.isSome = true → (s₁.core core).rangesHeld < 16) →
    let s₂ := (s₁.release w.uid true).setBlock w.block (x.onHalf core fun y =>
      { y with next := y.next.setIfInBounds ch.toNat (copyNext h ch + 1) })
    let c := s₁.core core
    ∃ R, lanesWritten w.regs R w.exec .n32 d (fun _ => zext64 (copyNext h ch))
      ∧ exec (.cpygo d ch) s = .next ((cold s (if t.total = 0 then s₂.retireTransfer t' ch.toNat
          else s₂.setCore core { c with chans := c.chans.setIfInBounds ch.toNat (queue ++ [t']) })).setWave s.cur
        { w.after with regs := R }))
  ∧ ∀ (a : Reg) (x : Block) (h : Half), s.block w.block = some x → x.half core = some h →
    let id := lane w.regs a w.leadLane
    let done := (h.done[ch.toNat]?).getD 1
    (0 < (done - id).toNat → (done - id).toNat ≤ 2 ^ 31 → exec (.waitid a ch) s = .next ((cold s s).onlyWave w.after))
    ∧ ((done - id).toNat = 0 ∨ 2 ^ 31 < (done - id).toNat → (id - done).toNat < (copyNext h ch - done).toNat →
      exec (.waitid a ch) s = .next (s.onlyWave { w.atIssue with wait := .transfer }))
    ∧ ((done - id).toNat = 0 ∨ 2 ^ 31 < (done - id).toNat → (copyNext h ch - done).toNat ≤ (id - done).toNat →
      trapsAt (.waitid a ch) s w .illegalOperand 0 0)

/-- On a spread table whose checks pass (R297, R298), with its elements by lane, index, core and key: `RGATHER` gives each
active lane its element, after the wave's own earlier stores and messages; `RSCAT` and `RSCATADD` send one message for each
index, that of the highest active lane, and wait while a core that they send to is halted (R438). `COLL` of a publish window
that may be written sends the active lanes' contributions (R299, R300). -/
def Obligations.Gathers : Prop := ∀ (s : State) (w : Wave) (d : Reg) (a : Pair) (b : Reg), s.runs w → w.roomFor 2 →
  let t := wmET w.wm
  let who := s.whoOf s.cur w
  let act := activeMask w
  widened t d = true →
  (∀ keys, s.spreadLanes w a b t.bytes = .ok keys →
    let s₁ := (distinct (keys.map fun k => k.2.2.1)).foldl (fun s c => s.flushElements w.uid c) (s.release w.uid true)
    (setGather t = true → act = 0 → exec (.rgather d a b) s = .next ((cold s s).onlyWave w.after))
    ∧ (setGather t = true → act ≠ 0 → (∀ k ∈ keys, k.2.2.1 = who.core ∨ (s.core k.2.2.1).halted = false) →
      (∀ k ∈ keys, k.2.2.2 / 64 ∉ s₁.poisoned ∧ (k.2.2.2 + t.bytes - 1) / 64 ∉ s₁.poisoned) →
      ∃ R n, exec (.rgather d a b) s = .next ((cold s (s₁.countBytes who n 0 0)).setWave s.cur { w.after with regs := R })
        ∧ lanesWritten w.regs R act t d fun n =>
          ((Assoc.find (keys.map fun k => (k.1, loadedLane t (s₁.mem.bytes k.2.2.2 t.bytes))) n).getD 0))
    ∧ ∀ adds : Bool, (if adds then setGatherAdd t else setGather t) = true →
      ((∃ k ∈ elements keys, k.2.2.1 ≠ who.core ∧ (s.core k.2.2.1).halted = true) →
        exec (if adds then .rscatadd d a b else .rscat d a b) s = .next (s.onlyWave { w.atIssue with wait := .engines }))
      ∧ ((∀ k ∈ elements keys, k.2.2.1 = who.core ∨ (s.core k.2.2.1).halted = false) →
      let sent := (elements keys).reverse.foldl (fun (s : State) k => s.sendElement who k.2.2.1 (scatterOp w d adds k))
        (if elements keys = [] then s else s.release w.uid true)
      exec (if adds then .rscatadd d a b else .rscat d a b) s =
        .next ((cold s (sent.countBytes who 0 ((elements keys).length * t.bytes) 0)).setWave s.cur w.after)))
  ∧ (setGatherAdd t = true → act = 0 → exec (.coll d a b) s = .next ((cold s s).onlyWave w.after))
  ∧ ∀ p, let va := pairLane w.regs a (lowestLane act)
    let op := (lane w.regs b (lowestLane act)).toNat
    setGatherAdd t = true → act ≠ 0 → op < 3 → va.toNat % (32 * t.bytes) = 0 → va.toNat < globalEnd →
    s.translate who.core who.pav who.ctx va.toNat = .ok p → p.pub = true → p.w = true →
    s.paKind (p.pa va.toNat) ≠ .nothing →
    let m : CollMsg := { id := s.fresh, core := who.core, pav := who.pav, ctx := who.ctx, block := w.block, uid := w.uid,
                         die := dieOf who.core, va := va, page := p.size, frame := p.frame, size := p.size, ord := p.ord,
                         offset := va.toNat - p.vbase, ty := t, op := BitVec.ofNat 2 op, sat := wmSAT w.wm,
                         data := (lanesOf act).map fun n => (n, laneT w.regs t d n) }
    exec (.coll d a b) s =
      .next ((cold s ({ (s.release w.uid true) with colls := s.colls ++ [m], fresh := s.fresh + 1 }.countBytes who 0
        (m.data.length * t.bytes) 0)).setWave s.cur w.after)

/-- Pair operations belong to the leader, and to the block that owns the unit (R305, R306, R340): from the follower they raise
`PAIR_ROLE`; while another block owns the unit they wait; a free unit is taken, as it is after reset, whatever else follows. A
pair operation that acts on lanes raises the same from the follower, and on the leader does nothing where no lane is active.
On the leader `ACZERO` and `ACSWAP` of no slot have no effect, whoever owns the unit (R347). -/
def Obligations.Ownership : Prop := ∀ (s : State) (w : Wave) (i : Instr), s.wave s.cur = some w →
  let pair := pairHere s
  (i = .rcfence ∨ (∃ mask, mask ≠ 0 ∧ (i = .aczero mask ∨ i = .acswap mask)) →
    (coreOf s.cur % 2 = 1 → trapsAt i s w .pairRole 0 0)
    ∧ (∀ b, coreOf s.cur % 2 = 0 → (s.unit pair).owner = some b → b ≠ w.block →
      exec i s = .next (s.onlyWave { w.atIssue with wait := .owner pair }))
    ∧ (coreOf s.cur % 2 = 0 → (s.unit pair).owner = none → exec i s = exec i (s.takeUnit pair w.block)
      ∧ (s.takeUnit pair w.block).unit pair =
        { ({} : MatrixUnit) with owner := some w.block, redx := (s.unit pair).redx }))
  ∧ (i = .aczero 0 ∨ i = .acswap 0 → coreOf s.cur % 2 = 0 → exec i s = .next (s.onlyWave w.after))
  ∧ (laneBound i = true → mmaTypes w = .ok () → wmET w.wm = .f32 →
    (coreOf s.cur % 2 = 1 → trapsAt i s w .pairRole 0 0)
    ∧ (coreOf s.cur % 2 = 0 → activeMask w = 0 →
      exec i s = .next ((if keepsL1 w.atIssue i then s else cold s s).onlyWave w.after)))

/-- An instruction that issues a matrix operation completes on the leader of the block that owns the unit, once its checks pass:
the wave's accesses are released and the operation stands last in the unit's order, in the wave's open batch where it joins it
(R307, R331, R340). `ACZERO` of no slot changes nothing (R347). -/
def Obligations.MatrixIssue : Prop := ∀ (s : State) (w : Wave) (i : Instr) (joins : Bool) (s₀ : State) (x : MxKind),
  let pair := pairHere s
  let who := s.whoOf s.cur w
  s.wave s.cur = some w → coreOf s.cur % 2 = 0 → (s.unit pair).owner = some w.block →
  (exec (.aczero 0) s = .next (s.onlyWave w.after))
  ∧ (matrixRow s w i = some (joins, s₀, x) → ∃ t, exec i s = .next t
    ∧ t.unit pair = { s.unit pair with ops := (s.unit pair).ops ++
        [{ id := s.fresh, block := w.block, uid := w.uid, core := who.core, kind := x, joins := joins }] }
    ∧ t.wave s.cur = some { w.after with openBatch := w.openBatch + if joins then 1 else 0 }
    ∧ (∀ k ≠ s.cur, t.wave k = s.wave k) ∧ (∀ p ≠ pair, t.unit p = s.unit p)
    ∧ t = { (s₀.release w.uid true) with units := t.units, waves := t.waves, fresh := s.fresh + 1, l1 := t.l1 })

/-- `MXFENCE` closes the wave's open batch and gives its number; `MXWAIT` completes for a batch that has retired, waits for one
that is closed, and else raises `ILLEGAL_OPERAND`; `ACSWAP` exchanges the named slots of the two banks once no issued operation
touches one, still sends to one, or may have its batch executed again; `ACLD` reads elements of a visible slot; `RCFENCE`
empties the block's record cache (R331, R345 to R348, R355). -/
def Obligations.MatrixMoves : Prop := ∀ (s : State) (w : Wave), s.runs w → w.roomFor 2 →
  let pair := pairHere s
  let u := s.unit pair
  coreOf s.cur % 2 = 0 → u.owner = some w.block →
  (∀ d : Reg, ∃ R, lanesWritten w.regs R w.exec .n32 d (fun _ => zext64 u.batchNext)
    ∧ exec (.mxfence d) s = .next (((s.setUnit pair (u.close w.uid)).settleUnit pair).setWave s.cur
        { w.after with regs := R, openBatch := 0 })
    ∧ (u.close w.uid).batchNext = u.batchNext + 1
    ∧ ∀ o ∈ (u.close w.uid).ops, o.uid = w.uid → o.joins = true → o.batch ≠ none)
  ∧ (∀ a : Reg, let b := lane w.regs a w.leadLane
    (u.closed b = false → trapsAt (.mxwait a) s w .illegalOperand 0 0)
    ∧ (u.closed b = true → u.retired b = true → exec (.mxwait a) s = .next ((cold s s).onlyWave w.after))
    ∧ (u.closed b = true → u.retired b = false → exec (.mxwait a) s = .next (s.onlyWave { w.atIssue with wait := .batch })))
  ∧ (∀ mask : BitVec 8, (mask = 0 → exec (.acswap mask) s = .next (s.onlyWave w.after))
    ∧ (mask ≠ 0 → u.uses pair mask = false → u.mayRewrite mask = false → ∃ v : MatrixUnit,
      exec (.acswap mask) s = .next ((s.setUnit pair v).setWave s.cur w.after)
      ∧ v = { u with working := v.working, visible := v.visible, past := v.past }
      ∧ ∀ k < 8, slotOf v.working k = slotOf (if mask.getLsbD k then u.visible else u.working) k
        ∧ slotOf v.visible k = slotOf (if mask.getLsbD k then u.working else u.visible) k)
    ∧ (mask ≠ 0 → u.uses pair mask = true ∨ u.mayRewrite mask = true →
      exec (.acswap mask) s = .next (s.onlyWave { w.atIssue with wait := .writers mask })))
  ∧ (∀ (d a : Reg) (slot : Slot),
    let el (n : Nat) : Nat := (lane w.regs a n).toNat % 64 * 128 + (lane w.regs a n).toNat / 64
    u.writesVisible slot.toNat = false →
    (∀ n < 32, (activeMask w).getLsbD n = true → (lane w.regs a n).toNat < 2 ^ 13 ∧ el n ∉ (slotOf u.visible slot.toNat).poison) →
    writesLanes (.acld d a slot) s w (activeMask w) .n32 d fun n => zext64 ((slotOf u.visible slot.toNat).elem (el n)))
  ∧ (∀ x, s.block w.block = some x → exec .rcfence s = .next ((s.setBlock w.block { x with records := [] }).setWave s.cur w.after))

/-- `LEAFGATHER` adds to each active lane the leaf values that its row of the slot selects, one rounded addition each in tree
order, a cell of 64 adding nothing (R359); `SGNPROJ` gives each active lane the signs of its vector's projections, a lane's
vector being read whole (R360). -/
def Obligations.LeavesAndProjections : Prop := ∀ (s : State) (w : Wave) (d : Reg) (a : Pair) (b : Reg), s.runs w → w.roomFor 2 →
  let act := activeMask w
  let j := lowestLane act
  let who := s.whoOf s.cur w
  let read (aligned : Bool) (va : DWord) (n lane : Nat) : LaneAccess :=
    { lane := lane, va := va, spans := s.check who .read aligned va n }
  let value (y : LaneAccess) : Nat := leNat (s.loadSpans w.uid y.ok)
  act ≠ 0 →
  (∀ trees slot row0 : Nat,
    let u := s.unit (pairHere s)
    let t := slotOf u.visible slot
    let cell (n k : Nat) : Nat := (t.elem ((row0 + n) * 128 + k)).toNat
    let reads (n : Nat) : List LaneAccess := ((List.range trees).filter fun k => cell n k != 64).map fun k =>
      read false (pairLane w.regs a j + BitVec.ofNat 64 ((64 * k + cell n k) * 4)) 4 n
    coreOf s.cur % 2 = 0 → u.owner = some w.block → wmET w.wm = .f32 → trees ≤ 128 → slot < 8 → row0 < 64 →
    (lane w.regs b j).toNat = trees + slot * 2 ^ 8 + row0 * 2 ^ 16 → (t.kind = 0 ∨ t.kind = 5) → u.writesVisible slot = false →
    (pairLane w.regs a j).toNat % 4 = 0 →
    (∀ n < 32, act.getLsbD n = true → row0 + n ≤ 63 ∧ ∀ k < trees, (row0 + n) * 128 + k ∉ t.poison) →
    clear s .read ((lanesOf act).flatMap reads) →
    ∃ R n, lanesWritten w.regs R act .n32 d (fun n => BitVec.ofNat 64 (leafSum (lane w.regs d n).toNat ((reads n).map value)))
      ∧ exec (.leafgather d a b) s = .next ((cold s (s.countBytes who n 0 0)).setWave s.cur { w.after with regs := R }))
  ∧ (∀ p n : Nat,
    let t := wmET w.wm
    let reads (i : Nat) : List LaneAccess := (List.range n).map fun k =>
      read true (pairLane w.regs a i + BitVec.ofNat 64 (k * t.bytes)) t.bytes i
    setTxt t = true → 1 ≤ p → p ≤ 32 → 1 ≤ n → n < 4096 → (lane w.regs d j).toNat = p + n * 2 ^ 8 →
    clear s .read ((lanesOf act).flatMap reads) →
    ∃ R k, lanesWritten w.regs R act .n32 d (fun i => zext64 (projCode t (lane w.regs b j) p ((reads i).map value)))
      ∧ exec (.sgnproj d a b) s = .next ((cold s (s.countBytes who k 0 0)).setWave s.cur { w.after with regs := R }))

/-- `TLAUNCH` does nothing where no lane is active. Once the checks of R274 pass and the core's launch FIFO has room for the
group, it releases the wave's accesses, enters one query for each active lane in lane order and gives every lane of `EXEC` the
ticket; without room it waits (R235, R236, R274). `CQPOP` takes up to 32 entries of the ring in order and leaves `EXEC` with one
lane for each (R275); `CQWAIT` completes once its ticket is complete, and else waits (R276). -/
def Obligations.Launches : Prop := ∀ (s : State) (w : Wave) (x : Block) (h : Half), s.runs w → w.roomFor 8 →
  s.block w.block = some x → x.half (coreOf s.cur) = some h →
  let core := coreOf s.cur
  let who := s.whoOf s.cur w
  let act := activeMask w
  let lanes := lanesOf act
  (∀ (d : Reg) (a : Pair) (b : Reg) (sp : List Span),
    let p := (lane w.regs b (lowestLane act)).toNat
    let fifo := (s.core core).fifo
    let ticket := h.launched + BitVec.ofNat 32 lanes.length
    (act = 0 → exec (.tlaunch d a b) s = .next ((cold s s).onlyWave w.after))
    ∧ (act ≠ 0 → 4096 ≤ x.scratch → p < 65536 →
      (∀ n ∈ lanes, (pairLane w.regs a n).toNat < globalEnd ∧ (pairLane w.regs a n).toNat % 64 = 0) →
      clearAt s w .read (s.recordAddr who p) 64 sp → headerOk (lineOf (s.loadSpans w.uid sp)) = true →
      (fifo.length + lanes.length ≤ 256 → ∃ R, lanesWritten w.regs R w.exec .n32 d (fun _ => zext64 ticket)
        ∧ exec (.tlaunch d a b) s = .next ((cold s (((s.release w.uid true).setBlock w.block
            (x.onHalf core fun y => { y with launched := ticket })).setCore core { s.core core with
              fifo := fifo ++ lanes.map fun n => { query := pairLane w.regs a n, prog := p, block := w.block } })).setWave s.cur
            { w.after with regs := R }))
      ∧ (256 < fifo.length + lanes.length →
        exec (.tlaunch d a b) s = .next (s.onlyWave { w.atIssue with wait := .launchRoom d a b }))))
  ∧ (∀ d : Pair,
    let n := Nat.min 32 (h.sluiceTail - h.sluiceHead)
    let got := maskOf fun i => decide (i < n)
    let e (i : Nat) := entryAt s x h (h.sluiceHead + i)
    (n = 0 → exec (.cqpop d) s = .next ((cold s s).onlyWave { w.after with exec := 0 }))
    ∧ (n ≠ 0 → (∀ i < n, scratchKey h.core (h.base + x.scratch - 4096 + 16 * ((h.sluiceHead + i) % 256)) / 64 ∉ s.poisoned) →
      ∃ R, pairsOk R
        ∧ (∀ i < 32, lane R (pairReg d) i = (if i < n then (e i).1 else lane w.regs (pairReg d) i)
          ∧ lane R (regAt (pairReg d) 1) i = (if i < n then (e i).2.1 else lane w.regs (regAt (pairReg d) 1) i)
          ∧ pairLane R (d + 1) i = if i < n then (e i).2.2 else pairLane w.regs (d + 1) i)
        ∧ (∀ r, (∀ k < 4, r ≠ regAt (pairReg d) k) → ∀ i < 32, lane R r i = lane w.regs r i)
        ∧ exec (.cqpop d) s = .next ((cold s (s.setBlock w.block
            (x.onHalf core fun y => { y with sluiceHead := y.sluiceHead + n }))).setWave s.cur
            { w.after with regs := R, exec := got })))
  ∧ ∀ a : Reg, if (h.completed - lane w.regs a w.leadLane).toNat < 2 ^ 31 then exec (.cqwait a) s = .next ((cold s s).onlyWave w.after)
      else exec (.cqwait a) s = .next (s.onlyWave { w.atIssue with wait := .tickets })

/-- On a resource, or a sampler, whose descriptors pass their checks, with nothing to stop the reads: `LDLOD` gives each active
lane the texel of the first resident level from the wanted one on, and the status word (R376, R383); `SAMPLE` gives it what the
filter program leaves, rounded once, and a NaN where a coordinate is not finite (R382, R386). What the lookups and the program's
taps log passes the core's duplicate filter in lane order (R379), and nothing else changes but what is counted (R440). With no
active lane nothing does. `SAMPLE` raises `ILLEGAL_TYPE` whatever its lanes where R384 refuses the type. -/
def Obligations.SamplerReads : Prop := ∀ (s : State) (w : Wave) (b : Reg), s.runs w → w.roomFor 8 →
  let who := s.whoOf s.cur w
  let act := activeMask w
  (∀ (d a : Pair) (r : Lod),
    let lanes := if act = 0xFFFFFFFF ∧ shape32 w.regs b = .u then [0] else lanesOf act
    (act = 0 → exec (.ldlod d a b) s = .next ((cold s s).onlyWave w.after))
    ∧ (act ≠ 0 → s.readLod w (pairLane w.regs a (lowestLane act)) = .ok r →
      clear s .read (lanes.flatMap fun n => (ldlodLane r (lane w.regs b n) { s := s, w := w, who := who, lane := n }).accesses) →
      ∃ (R : Regs) (logs : List LookupLog), pairWritten w.regs R act (pairReg d) (fun n => (ldlodResult s w r (lane w.regs b n)).1)
          (fun n => (ldlodResult s w r (lane w.regs b n)).2)
        ∧ logs.map (fun x : LookupLog => (x.wanted, x.tx, x.ty, x.level)) = lanes.filterMap (fun n => ldlodLog s w r (lane w.regs b n))
        ∧ (∀ x ∈ logs, x.core = who.core ∧ x.pav = who.pav ∧ x.ctx = who.ctx ∧ x.resid = BitVec.ofNat 32 r.resid)
        ∧ exec (.ldlod d a b) s = .next ((cold s ((logs.foldl State.logLookup s).countRequests w lanes.length)).setWave s.cur
            { w.after with regs := R })))
  ∧ ∀ (d : Reg) (a : Pair) (desc : Line) (r : Lod) (prog : List Word) (tables : List Byte),
    let t := wmET w.wm
    let lanes := if act = 0xFFFFFFFF ∧ (List.range 4).all (fun k => shape32 w.regs (regAt b k) == .u) = true then [0] else lanesOf act
    let src (n k : Nat) : Nat := (lane w.regs (regAt b k) n).toNat
    let probe (n : Nat) := sampleLane r prog tables (lineField desc 16 1) (src n 0) (src n 1) (src n 2) (src n 3)
      { s := s, w := w, who := who, lane := if n ∈ lanes then n else 0 }
    let logs := lanes.flatMap fun n => ((probe n).value.map fun v => v.2).getD []
    (setTxt t = false → trapsAt (.sample d a b) s w .illegalType 0 0)
    ∧ (setTxt t = true → act = 0 → exec (.sample d a b) s = .next ((cold s s).onlyWave w.after))
    ∧ (setTxt t = true → act ≠ 0 → s.readSampler w (pairLane w.regs a (lowestLane act)) = .ok (desc, r, prog, tables) →
      (252 < b.toNat → trapsAt (.sample d a b) s w .illegalOperand 0 0)
      ∧ (b.toNat ≤ 252 → clear s .read (lanes.flatMap fun n => (probe n).accesses) →
        ∃ R : Regs, lanesWritten w.regs R act .n32 d (fun n => BitVec.ofNat 64 (match (probe n).value with
            | some (some x, _) => t.fmt.round 0 0 (ETy.f32.fmt.decode x).exact
            | _ => t.fmt.canon))
          ∧ exec (.sample d a b) s = .next ((cold s ((logs.foldl State.logLookup s).countRequests w lanes.length)).setWave s.cur
              { w.after with regs := R })))

/-- `PRIMEMIT` of readable, well-formed primitives sends one triangle for each active lane, in lane order, to every die that
owns a tile it touches, with the stream's next tokens, and waits while an input is full (R389 to R391). `VISRD` under no active
lane changes nothing; once no triangle of the wave that touches a lane's tile is uncommitted, it gives each lane the half of the
sample that the die's tile store holds, or else memory (R387, R393). -/
def Obligations.Coverage : Prop := ∀ (s : State) (w : Wave), s.runs w → w.roomFor 2 →
  let who := s.whoOf s.cur w
  let act := activeMask w
  (∀ a : Pair,
    let l := s.laneAccesses who .read true act (pairLane w.regs a) 64
    let rec_ (n : Nat) : Line := lineOf (s.loadSpans w.uid (spansOf l n))
    let vl := s.laneAccesses who .read true act (fun n => BitVec.ofNat 64 (lineField (rec_ n) 40 8)) 64
    let view (n : Nat) : Line := lineOf (s.loadSpans w.uid (spansOf vl n))
    let tri (n : Nat) : Triangle :=
      { pav := who.pav, ctx := who.ctx, core := who.core, stream := w.uid, token := 0, query := none,
        view := BitVec.ofNat 64 (lineField (rec_ n) 40 8), viewRec := view n, prim := BitVec.ofNat 32 (lineField (rec_ n) 36 4),
        verts := viewTransform (view n) ((List.range 9).map fun k => lineField (rec_ n) (4 * k) 4) }
    let ts := (lanesOf act).map tri
    clear s .read l → clear s .read vl → (∀ n ∈ lanesOf act, lineField (rec_ n) 48 16 = 0 ∧ viewOk (view n) = true) →
    if s.coverRoom (ts.flatMap fun t => triangleDies t.viewRec t.verts) = true then
      exec (.primemit a) s = .next ((cold s (ts.foldl State.sendTriangle s)).setWave s.cur w.after)
    else exec (.primemit a) s = .next (s.onlyWave { w.atIssue with wait := .primRoom a }))
  ∧ ∀ (d a : Reg) (sp : List Span),
    let va := s.ctxField who.pav who.ctx 136 8
    let v := lineOf (s.loadSpans w.uid sp)
    let sel (n : Nat) : Nat := (lane w.regs a n).toNat
    let x (n : Nat) : Nat := sel n % 2 ^ 13
    let y (n : Nat) : Nat := sel n / 2 ^ 13 % 2 ^ 13
    let half (n : Nat) : Nat := if sel n / 2 ^ 29 % 2 = 1 then 0 else 4
    let l := s.laneAccesses who .read false act
      (fun n => BitVec.ofNat 64 (sampleAddr v (x n) (y n) (sel n / 2 ^ 26 % 8) + half n)) 4
    let store := (s.cover (dieOf who.core)).store
    (act = 0 → exec (.visrd d a) s = .next ((cold s s).onlyWave w.after))
    ∧ (act ≠ 0 → va % 64 = 0 → clearAt s w .read (BitVec.ofNat 64 va) 64 sp → viewOk v = true →
      (∀ n ∈ lanesOf act, sel n < 2 ^ 30 ∧ x n < viewWidth v ∧ y n < viewHeight v ∧ sel n / 2 ^ 26 % 8 < viewSamples v) →
      (∀ n ∈ lanesOf act, s.tileOwed w.uid (x n / 64) (y n / 64) = false) → clear s .read l →
      ∃ R, exec (.visrd d a) s = .next ((cold s s).setWave s.cur { w.after with regs := R })
        ∧ lanesWritten w.regs R act .n32 d fun n =>
        let key := ((spansOf l n).head?.map Span.key).getD 0 - half n
        match (if (x n / 64 + y n / 64) % 2 = dieOf who.core then Assoc.find store key else none) with
        | some z => zext64 (if half n = 0 then loWord z.value else hiWord z.value)
        | none => BitVec.ofNat 64 (leNat (s.loadSpans w.uid (spansOf l n))))

/-- The integer instructions, `MOV`, `LDI` and `STKD` write one register of their walker and leave f (R268, R270); `CMP` sets f
alone (R271); the jumps change PC alone (R272). Each retires whatever the state. -/
def Obligations.WalkerArithmetic : Prop := ∀ (s : State) (w : Walker), walks s w →
  (∀ i d x, aluRow w i = some (d, x) → retiresAs i s w s { pastWord w with w := gtsRegs w [(d, x)] })
  ∧ (∀ (a b : WReg) (cond : BitVec 3), ∃ f : Bool, (f = true ↔ condHolds cond (w.reg a) (w.reg b))
    ∧ retiresAs (.gtsCmp a b cond) s w s { pastWord w with f := f })
  ∧ ∀ off : BitVec 14,
    let taken : Walker := { pastWord w with pc := w.pc + BitVec.ofInt 64 (off.toInt * 4) }
    retiresAs (.jump off) s w s taken
    ∧ retiresAs (.jumpF off) s w s (if w.f then taken else pastWord w)
    ∧ retiresAs (.jumpNF off) s w s (if w.f then pastWord w else taken)

/-- `NFETCH` of a well-formed reference puts the node's bytes and the reference into the walker (R258); on a valid node (R240)
`NDEC`, `NFIELD`, `NCHILD`, `BOXT`, `TRIT`, `KCMP` and `KRANGE` write what R258 to R265 say, and `FRUST` the classes of the
boxes (R263). A missing, malformed or lacking node ends the query with NODE_MALFORMED and the reference (R240, R244, R259). -/
def Obligations.WalkerNodes : Prop := ∀ (s : State) (w : Walker), walks s w →
  (∀ (a : WReg) (bs : List Byte),
    let r := w.reg a
    (r = 0 ∨ refOk w.prog.ndec r = false → queryEnds (.nfetch a) s w .nodeMalformed r)
    ∧ (r ≠ 0 → refOk w.prog.ndec r = true → refCard r = 1 → queryEnds (.nfetch a) s w .fabric r)
    ∧ (r ≠ 0 → refOk w.prog.ndec r = true → refCard r = 0 → (w.decoder (refDec r)).size ≤ 2 →
      walkerReads s w (BitVec.ofNat 64 (refAddr r)) (64 * 2 ^ (w.decoder (refDec r)).size) bs →
      ∃ buf, retiresAs (.nfetch a) s w (s.countRead s.curWalker w (64 * 2 ^ (w.decoder (refDec r)).size))
          { pastWord w with nodebuf := buf, noderef := r }
        ∧ buf.take bs.length = bs ∧ ∀ k, bs.length ≤ k → k < w.nodebuf.length → buf[k]? = w.nodebuf[k]?))
  ∧ (∀ i, usesNode i = true → (w.noderef = 0 → queryEnds i s w .nodeMalformed 0)
    ∧ (w.noderef ≠ 0 → (nodeHeld w).ok = false → queryEnds i s w .nodeMalformed w.noderef))
  ∧ ∀ n : Node, w.node = .ok n →
    (∀ i, lacks n i = true → queryEnds i s w .nodeMalformed w.noderef)
    ∧ (∀ i l f, nodeRow w n i = some (l, f) →
      retiresAs i s w s { pastWord w with w := gtsRegs w l, f := f.getD w.f })
    ∧ ∀ (d a : WReg) boxes bs, n.boxes = some boxes → (w.reg a).toNat % 64 = 0 → walkerReads s w (w.reg a) 96 bs →
      let planes := (List.range 6).map fun j => (List.range 4).map fun c => XR.f32 (leNat ((bs.drop (16 * j + 4 * c)).take 4))
      let x := (boxes.map fun b => frustClass planes b.2 * 4 ^ b.1).sum
      retiresAs (.frust d a) s w (s.countRead s.curWalker w 96) { pastWord w with w := gtsRegs w [(d, BitVec.ofNat 64 x)], f := x != 0 }

/-- Loads of a walker: `LDN` (R258), `DIST` (R266) and `LDQ` (R269) write the register they name from what the walker reads, and
`STQ` stores to the query record, or to the copy that a shipped query carries (R248, R269). `TOPK` inserts a candidate by R267:
it stores the entries from its place on and COUNT, and answers with the last distance of a full list. -/
def Obligations.WalkerMemory : Prop := ∀ (s : State) (w : Walker), walks s w →
  (∀ (d a : WReg) (k : BitVec 14) bs, (w.reg a).toNat < 2 ^ 48 → (w.reg a).toNat % 8 = 0 →
    walkerReads s w (w.reg a + BitVec.ofNat 64 (8 * k.toNat)) 8 bs →
    retiresAs (.ldn d a k) s w (s.countRead s.curWalker w 8) { pastWord w with w := gtsRegs w [(d, BitVec.ofNat 64 (leNat bs))] })
  ∧ (∀ (d a b : WReg) (metric : BitVec 2) (dims : BitVec 12) q c, metric.toNat < 2 → dims ≠ 0 →
    (w.reg a).toNat % 2 = 0 → (w.reg b).toNat % 2 = 0 →
    walkerReads s w (w.reg a) (2 * dims.toNat) q → walkerReads s w (w.reg b) (2 * dims.toNat) c →
    retiresAs (.dist d a b metric dims) s w (s.countRead s.curWalker w (4 * dims.toNat))
      { pastWord w with w := gtsRegs w [(d, BitVec.ofNat 64 (distance metric (bf16Vector q dims.toNat) (bf16Vector c dims.toNat)))] })
  ∧ (∀ (r : WReg) (width : BitVec 1) (k : BitVec 4),
    (if width = 0 then 9 < k.toNat else (k.toNat % 2 = 1 ∨ 8 < k.toNat)) →
      queryEnds (.ldq r width k) s w .illegal w.pc ∧ queryEnds (.stq r width k) s w .illegal w.pc)
  ∧ (∀ (r : WReg) (width : BitVec 1) (k : BitVec 4), let n := if width = 0 then 4 else 8
    let off := 16 + 4 * k.toNat
    (if width = 0 then k.toNat ≤ 9 else (k.toNat % 2 = 0 ∧ k.toNat ≤ 8)) →
    (∀ bs, w.shipped = none → walkerReads s w (w.query + BitVec.ofNat 64 off) n bs →
      retiresAs (.ldq r width k) s w (s.countRead s.curWalker w n) { pastWord w with w := gtsRegs w [(r, BitVec.ofNat 64 (leNat bs))] })
    ∧ (∀ t, w.shipped = none → s.walkerStores s.curWalker w [(w.query + BitVec.ofNat 64 off, leBytes (w.reg r).toNat n)] = .ok t →
      retiresAs (.stq r width k) s w t (pastWord w))
    ∧ ∀ h, w.shipped = some h →
      retiresAs (.ldq r width k) s w s { pastWord w with w := gtsRegs w [(r, BitVec.ofNat 64 (lineField h.query off n))] }
      ∧ retiresAs (.stq r width k) s w s
          { pastWord w with shipped := some { h with query := lineSet h.query off n (w.reg r).toNat } })
  ∧ ∀ (d a b : WReg) (k : Nat) (l : List NearEntry),
    let cand : NearEntry := ((loWord (w.reg b)).toNat, (loWord (w.reg d)).toNat)
    let s₁ := s.countRead s.curWalker w (8 + 8 * l.length)
    (w.reg a).toNat % 8 = 0 → 1 ≤ k → k ≤ 32 → l.length ≤ k → nearList s w (w.reg a) k l →
    (topkInsert k l cand = none →
      retiresAs (.topk d a b) s w s₁ { pastWord w with w := gtsRegs w [(d, topkAnswer k l)], f := false })
    ∧ ∀ stay l' t, topkInsert k l cand = some (stay, l') →
      s₁.walkerStores s.curWalker w
        [(w.reg a + BitVec.ofNat 64 (8 + 8 * stay), (l'.drop stay).flatMap fun e => leBytes e.1 4 ++ leBytes e.2 4),
         (w.reg a, leBytes l'.length 2)] = .ok t →
      retiresAs (.topk d a b) s w t { pastWord w with w := gtsRegs w [(d, topkAnswer k l')], f := true }
        ∧ l'.length = Nat.min k (l.length + 1) ∧ l'.take stay = l.take stay ∧ l'[stay]? = some cand

/-- The walker stack (R245, R268), with its entries as R245 keeps them. `PUSH` and `PUSHM` (the children that its mask names, in
its order) push all their entries or none: each entry goes on top, and at 16 resident entries the lowest 8 go to the spill area
first; where an entry would pass depth 128, or must spill with no spill area, the query ends with STACK_DEPTH and that entry's
reference. `POP` gives back the top entry and fills the hardware from the spill area; at depth 0 it clears f alone, and a register
pair past w15 is ILLEGAL. -/
def Obligations.WalkerStack : Prop := ∀ (s : State) (w : Walker), walks s w →
  (w.stack.length ≤ 16 → w.stack.length ≤ w.depth → w.depth ≤ 128 →
    (∀ a b : WReg, pushes s w (.push a b) [{ ref := w.reg a, key := loWord (w.reg b), aux := hiWord (w.reg b) }] w.f)
    ∧ ∀ (a b : WReg) (order : BitVec 1) (n : Node), w.node = .ok n →
      let ms := (List.range 16).filter fun m => (w.reg a).getLsbD m && n.child m != 0
      let l := (if order = 0 then ms.reverse else ms).map fun m =>
        { ref := n.child m, key := loWord (w.reg b), aux := BitVec.ofNat 32 m : StackEntry }
      pushes s w (.pushm a b order) l (!l.isEmpty))
  ∧ (∀ d : WReg, 14 < d.toNat → queryEnds (.pop d) s w .illegal w.pc)
  ∧ ∀ d : WReg, d.toNat ≤ 14 →
    (w.stack = [] → retiresAs (.pop d) s w s { pastWord w with f := false })
    ∧ ∀ l e, w.stack = l ++ [e] →
      let w' : Walker := { pastWord w with
        w := gtsRegs w [(d, e.ref), (d + 1, joinWords e.key e.aux)], f := true, depth := w.depth - 1 }
      (l ≠ [] ∨ w.depth ≤ 1 → retiresAs (.pop d) s w s { w' with stack := l })
      ∧ ∀ bs, l = [] → 1 < w.depth →
        let n := Nat.min 8 (w.depth - 1)
        walkerReads s w (w.spill + BitVec.ofNat 64 (16 * (w.depth - 1 - n))) (16 * n) bs →
        retiresAs (.pop d) s w (s.countRead s.curWalker w (16 * n))
          { w' with stack := (List.range n).map fun j => StackEntry.ofBytes ((bs.drop (16 * j)).take 16) }

/-- `EMIT`, `DONE` and `HOOK` post their entry (R244, R246, R273), and a word that is no instruction ends the query with ILLEGAL
at its address (R255). An entry that may be posted goes to the ring's tail with its tag, status and payload; a terminal one
counts the query as complete and frees the walker, and any other lets it go on (R242 to R244). `COVER` of a valid triangle node
with a well-formed view sends the triangle to every die that owns a tile it touches and is owed a commit by each; it waits while
an input is full (R247, R273). `HANDOFF` of a reference on the partner card ships the query with its whole stack and its query
record, and leaves the walker remote, once the link is up; another reference is ILLEGAL (R248, R273). That the message carries
NODEREF is assumption 66, and that it goes to the pavilion and core of the same number assumption 38. -/
def Obligations.WalkerPosts : Prop := ∀ (s : State) (w : Walker), walks s w →
  let who := s.walkerWho s.curWalker w
  (∀ a : WReg, queryPosts (.emit a) s w .emit (w.reg a) false w.f 0 ∧ queryPosts (.done a) s w .done (w.reg a) true w.f 0)
  ∧ (∀ x : Word, queryEnds (.gtsIllegalWord x) s w .illegal w.pc)
  ∧ (∀ (a : WReg) (k : BitVec 14) (bs : List Byte),
    let x := BitVec.ofNat 32 ((w.reg a).toNat + k.toNat)
    let at_ := w.prog.hookBase + BitVec.ofNat 64 (64 * x.toNat)
    (w.prog.hookCount.toNat ≤ x.toNat → queryPosts (.hook a k) s w .tableRange (zext64 x) false false 0)
    ∧ (x.toNat < w.prog.hookCount.toNat → walkerReads s w at_ 8 bs →
      if leNat bs = 0 then queryPosts (.hook a k) s w .nullRecord at_ false false 8
      else queryPosts (.hook a k) s w .hook at_ false true 8))
  ∧ (∀ (e : SluiceEntry) (terminal f : Bool) (x : Block) (h : Half), w.shipped = none →
    s.canPost s.curWalker w terminal = true → s.block w.block = some x → x.half (s.curWalker / 64) = some h → e.status < 2 ^ 32 →
    let t := s.postOrWait s.curWalker w e terminal f
    entryAt t x h h.sluiceTail = (e.tag, BitVec.ofNat 32 e.status, e.payload)
    ∧ (let k := scratchKey h.core (h.base + x.scratch - 4096 + 16 * (h.sluiceTail % 256))
       ∀ j, j < k ∨ k + 16 ≤ j → t.mem.read j = s.mem.read j)
    ∧ t.block w.block = some (x.onHalf (s.curWalker / 64) fun y =>
        { y with sluiceTail := y.sluiceTail + 1, completed := if terminal then y.completed + 1 else y.completed })
    ∧ t.walker s.curWalker = if terminal then none else
        some { w with f := f, pc := w.pc + 4, wait := .none, answers := [], struck := none })
  ∧ (∀ (a b : WReg) (n : Node) (c : List Nat) (bs : List Byte), w.node = .ok n → n.triangle = some c →
    (w.reg b).toNat % 64 = 0 → walkerReads s w (w.reg b) 64 bs → viewOk (lineOf bs) = true →
    let t : Triangle :=
      { pav := who.pav, ctx := who.ctx, core := who.core, stream := w.uid, token := 0, query := some w.uid,
        view := w.reg b, viewRec := lineOf bs, prim := loWord (w.reg a), verts := viewTransform (lineOf bs) c }
    let dies := triangleDies (lineOf bs) t.verts
    if s.coverRoom dies = true then
      retiresAs (.cover a b) s w ((s.countRead s.curWalker w 64).sendTriangle t) { pastWord w with covers := w.covers + dies.length }
    else exec (.cover a b) s = .next (s.setWalker s.curWalker { stays w with wait := .cover dies }))
  ∧ ∀ a : WReg,
    (refOk w.prog.ndec (w.reg a) = false ∨ refCard (w.reg a) ≠ 1 → queryEnds (.handoff a) s w .illegal w.pc)
    ∧ ∀ stack q, refOk w.prog.ndec (w.reg a) = true → refCard (w.reg a) = 1 → s.wholeStack s.curWalker w = .ok stack →
      s.queryCopy s.curWalker w = .ok q →
      let m : HandoffMsg :=
        { core := who.core, pav := who.pav, ctx := s.ctxField who.pav who.ctx 148 2, prog := w.prog.index, regs := w.w.toList,
          named := a, f := w.f, pc := w.pc + 4, stack := stack, nodebuf := w.nodebuf, noderef := w.noderef, query := q,
          tag := w.tag, origin := w.uid }
      let read := 16 * (w.depth - w.stack.length) + if w.shipped.isSome then 0 else 64
      if s.pf.ualup then
        retiresAs (.handoff a) s w ((s.countRead s.curWalker w read).emit (.handoff m)) { pastWord w with wait := .remote (w.reg a) }
      else exec (.handoff a) s = .next (s.setWalker s.curWalker { stays w with wait := .link })

/-- Reset and bring-up. `RESET` leaves every field as `State.reset` has it but the flash, with a new image from the mailbox, the
firmware that verifies (or READYERR bit 1 where none does), host memory, and the model's own counters (R451, R455, assumptions 2,
4, 46 and 75). A function sets its READY bit once the functions it needs are ready, a die's cores once its failed pairs are mapped
out too (R433), or its READYERR bit (R451). The first write to DRVFEAT without a bit outside DEVFEAT locks it,
another sets FEATERR (R453). UALEN is ignored while DRVFEAT bit 0 is not accepted, training sets UALUP and READY bit 15, and a loss
of the link clears UALUP, sets LOSS and raises CODE 6 with CTX 0xFFFF (R453, R457, assumption 49). Attestation answers with the
SHA-384 digests of the firmware, DEVFEAT, DRVFEAT and each pavilion's latched DEBUGGABLE bits, and two signatures over one
transcript (R456, assumption 75). The clock steps by 25 MHz between 1,000 and 1,500 MHz (R458; the step up is assumption 47). A
thermal trip terminates every context that is latched, holds work or has an enabled queue, stops the issue of every wave and
walker, and reports a CXL fatal error (R458). An idle core is power-gated and regains power (R421). -/
def Obligations.BringUp : Prop := ∀ s : State,
  (∃ m : Memory, exec .reset s = .next { State.reset with
      pf := { State.reset.pf with flashA := (imageTaken s.pf).flashA, flashB := s.pf.flashB,
                                  firmware := (verified (imageTaken s.pf)).getD [],
                                  readyErr := if verified (imageTaken s.pf) = none then 2 else 0 },
      mem := m, out := s.out, agenda := s.agenda, steps := s.steps, fresh := s.fresh }
    ∧ ∀ a, m.read a = if 0x4000000000000 ≤ a ∧ a < 0x8000000000000 then s.mem.read a else 0)
  ∧ (∀ (n : Nat) (ok : Bool), n ≤ 16 → s.pf.ready.getLsbD n = false → s.pf.readyErr.getLsbD n = false →
    (∀ m ∈ needs n, s.pf.ready.getLsbD m = true) → (n = 15 → s.pf.ualen = true ∧ (ok = true → s.pf.ualup = true)) →
    (ok = true → n = 9 ∨ n = 10 → noPairLeft s (n - 9)) →
    ∃ x : BitVec 64, exec (.functionReady n ok) s =
        .next (onlyPf s (if ok then { s.pf with ready := x } else { s.pf with readyErr := x }))
      ∧ ∀ m < 64, x.getLsbD m = (m == n || (if ok then s.pf.ready else s.pf.readyErr).getLsbD m))
  ∧ (∀ v : BitVec 256, s.regsUp = true →
    (s.pf.locked = true → exec (.featureAccept v) s = .next s)
    ∧ (s.pf.locked = false → v &&& ~~~s.pf.devfeat ≠ 0 → exec (.featureAccept v) s = .next (onlyPf s { s.pf with featErr := true }))
    ∧ (s.pf.locked = false → v &&& ~~~s.pf.devfeat = 0 →
      exec (.featureAccept v) s = .next (onlyPf s { s.pf with drvfeat := v, locked := true })))
  ∧ (∀ v : Bool, s.regsUp = true →
    exec (.ualinkEnable v) s = .next (if s.accepted 0 then onlyPf s { s.pf with ualen := v } else s))
  ∧ (s.pf.ualen = true → s.pf.ready.getLsbD 1 = true → s.pf.readyErr.getLsbD 15 = false →
    ∃ x : BitVec 64, exec .ualinkUp s = .next (onlyPf s { s.pf with ualup := true, ready := x }) ∧ x.getLsbD 15 = true
      ∧ ∀ m < 64, m ≠ 15 → x.getLsbD m = s.pf.ready.getLsbD m)
  ∧ (s.pf.ualup = true →
    exec .ualinkLoss s = .next ((onlyPf s { s.pf with ualup := false, loss := true }).pfEvent 6 0xFFFF 0 s.clock.toNat))
  ∧ (∀ nonce : BitVec 256, s.pf.ready.getLsbD 16 = true → ∃ r : SpdmResponse,
    let t := Config.spdmTranscript ([r.firmware, r.devfeat, r.drvfeat] ++ r.debuggable) nonce
    exec (.spdmMeasurements nonce) s = .next (s.emit (.spdm r))
      ∧ r.firmware = sha384 s.pf.firmware ∧ r.devfeat = sha384 (leBytes s.pf.devfeat.toNat 32)
      ∧ r.drvfeat = sha384 (leBytes s.pf.drvfeat.toNat 32) ∧ r.debuggable.length = 16
      ∧ (∀ p < 16, ∃ l : List (Nat × Bool),
        r.debuggable[p]? = some (sha384 (l.flatMap fun x => leBytes x.1 2 ++ [if x.2 then 1 else 0]))
          ∧ ∀ c d, (c, d) ∈ l ↔ c < 65536 ∧ s.ctxValid p c = true ∧ ∃ x, (65536 * p + c, x) ∈ s.ctxs ∧ x.debuggable = d)
      ∧ r.signature = Config.rsaSignature t ∧ r.opaqueData = Config.slhDsaSignature t)
  ∧ (∀ power : BitVec 16, ∃ mhz, exec (.throttleStep power) s = .next { (onlyPf s { s.pf with power := power }) with mhz := mhz }
    ∧ (6900 < power.toNat → 1025 ≤ s.mhz → mhz = s.mhz - 25) ∧ (power.toNat = 6900 → mhz = s.mhz)
    ∧ (power.toNat < 6900 → s.mhz ≤ 1475 → mhz = s.mhz + 25) ∧ (1000 ≤ s.mhz → s.mhz ≤ 1500 → 1000 ≤ mhz ∧ mhz ≤ 1500))
  ∧ (∃ (l : List (Nat × Nat)) (t : State), (∀ b x, s.block b = some x → x.ctx < 65536 → (x.pav, x.ctx) ∈ l)
    ∧ (∀ k, k ∈ s.workKeys ∨ (∃ x, (k, x) ∈ s.ctxs) → (k / 65536, k % 65536) ∈ l)
    ∧ (∀ p q, q < 256 → s.queueEnabled p q = true ∨ s.queueCount p q ≠ 0 → (p, s.queueCtx p q) ∈ l)
    ∧ exec .thermalTrip s = .next t
    ∧ t = { l.foldl (fun (u : State) (c : Nat × Nat) => u.terminate c.1 c.2 0 0) s with thermal := true }.emit .cxlFatal
    ∧ (∀ k w, t.ready k w = false) ∧ ∀ k w, t.walkerReady k w = false)
  ∧ ∀ core, (core < 224 → s.coreIdle core = true →
      exec (.corePowerGating core) s = .next (s.setCore core { s.core core with gated := true }))
    ∧ exec (.corePowerUngating core) s = .next (s.setCore core { s.core core with gated := false })

/-- Register writes and reads (R17, R445 to R447, R452): a write to a register whose function is not ready is ignored; a VF's BAR0
is the control block of its pavilion; the control block ignores every write until DRVFEAT is locked; its rings take the address
bits [51:6] of the value (R378), and the scrubber's period its low byte; a write that is a command does what the command's event
does; a ring reads back what it holds, and FLTRESP, GO and a register that is not ready read zero. The width of an access and
which function a register belongs to are assumption 45, and what GO with RESUME means assumption 43. -/
def Obligations.RegisterWrites : Prop := ∀ (s : State) (v : DWord),
  (∀ off, s.regReady off = false → exec (.registerWrite none off v) s = .next s)
  ∧ (s.regsUp = true →
    (∀ n p off, s.vfPav n = some p → off % 8 = 0 → off < 0x10000 →
      exec (.registerWrite (some n) off v) s = exec (.registerWrite none (0x200000 + 0x10000 * p + off) v) s)
    ∧ (∀ n off, s.vfPav n = none → exec (.registerWrite (some n) off v) s = .next s)
    ∧ exec (.registerWrite none 0x208 v) s = .next (onlyPf s { s.pf with scrubPeriod := v.setWidth 8 })
    ∧ exec (.registerWrite none 0x238 v) s = .next (onlyPf s { s.pf with pfevring := ringBits v })
    ∧ exec (.registerWrite none 0x200 v) s = exec (.mapout (v.setWidth 32)) s
    ∧ (∀ core < 224, s.pf.ready.getLsbD (9 + core / 112) = true →
      exec (.registerWrite none (0x100000 + 0x1000 * core + 8) v) s =
        exec (if v.getLsbD 0 then .debugHalt core else .debugRelease core) s)
    ∧ ∀ p < 16, let at_ (off : Nat) : Nat := 0x200000 + 0x10000 * p + off
      (s.pf.locked = false → ∀ off < 0x10000, exec (.registerWrite none (at_ off) v) s = .next s)
      ∧ (s.pf.locked = true →
        exec (.registerWrite none (at_ 0x8000) v) s = .next (s.setPav p { s.pav p with fbring := ringBits v })
        ∧ exec (.registerWrite none (at_ 0x8008) v) s = .next (s.setPav p { s.pav p with fltring := ringBits v })
        ∧ exec (.registerWrite none (at_ 0x8030) v) s = .next (s.setPav p { s.pav p with evring := ringBits v })
        ∧ exec (.registerWrite none (at_ 0x8040) v) s = .next (s.setPav p { s.pav p with ctxcount := v.setWidth 16 })
        ∧ (v.toNat < 2 ^ 32 → exec (.registerWrite none (at_ 0x8010) v) s = exec (.faultRetry p (v.setWidth 32)) s)
        ∧ (v.getLsbD 16 = true → exec (.registerWrite none (at_ 0x8048) v) s = exec (.preemptGo p (v.setWidth 16)) s))
      ∧ s.readRegister none (at_ 0x8000) = (s.pav p).fbring ∧ s.readRegister none (at_ 0x8008) = (s.pav p).fltring
      ∧ s.readRegister none (at_ 0x8010) = 0
      ∧ (s.readRegister none (at_ 0x8048)).getLsbD 16 = false ∧ (s.readRegister none (at_ 0x8048)).getLsbD 19 = false)
  ∧ ∀ off, 0x10 ≤ off → off < 0x40000 → s.regsUp = false → s.readRegister none off = 0

/-- The host and memory. A store to an enqueue window appends its entry, or is discarded with its error (R398, R399), with no
change where the home distributor is not ready (R452). CXL.mem reads and writes device memory once it is ready and before that
completes with the poison indication, and a snoop gets a host line's bytes (R193, R444, R452). A descriptor write that sets ENABLE
creates the queue unless R397 refuses it, and one that clears ENABLE leaves the entries. A double-bit error in a line of memory, L2
or a cache of a core, or a failing check value, poisons the line and ends no wave, and so does the fourth mismatch on a hop; one in
a row poisons the row alone; the scrubber reads no memory while its period is 0; a double-bit error in a wave's state ends its
context (R427, R428); and writing 1 frees an error record (R431). Where a test may find an error, what a cache's error poisons and
the records' fields are assumptions 13, 26 and 60, and the sources of hops assumption 71. -/
def Obligations.HostAccess : Prop := ∀ s : State,
  (∀ pav q whole x, pav < 16 → q < 256 → s.queueHome pav q < 2 →
    let off := 0x4000 * pav + 64 * q
    (s.pf.ready.getLsbD (11 + s.queueHome pav q) = false → exec (.hostEnqueueStore off whole x) s = .next s)
    ∧ (s.pf.ready.getLsbD (11 + s.queueHome pav q) = true → exec (.hostEnqueueStore off whole x) s = .next
        (match windowError s pav q whole x with
        | some err => s.queueError pav q err true
        | none => s.appendEntry pav q x)))
  ∧ (∀ (addr : Nat) (data : List Byte), s.pf.ready.getLsbD 5 = false →
    exec (.hostMemStore addr data) s = .next (s.emit (.hostData addr [] true)))
  ∧ (∀ (addr : Nat) (data : List Byte), s.pf.ready.getLsbD 5 = true → addr + data.length ≤ 0x2000000000 →
    ∃ t, exec (.hostMemStore addr data) s = .next t ∧ onlyMemory s t ∧ t.stores = s.stores ∧ t.drQueue = s.drQueue
      ∧ (∀ n < data.length, t.mem.read (addr + n) = (data[n]?).getD 0)
      ∧ (∀ k, k < addr ∨ addr + data.length ≤ k → t.mem.read k = s.mem.read k) ∧ ∀ l ∈ t.poisoned, l ∈ s.poisoned)
  ∧ (∀ addr n (egress : Bool), addr < 0x2000000000 → addr + n ≤ 0x2000000000 → ∃ bad : Bool,
    exec (.hostMemRead addr ⟨n, egress⟩) s =
      .next (s.emit (.hostData addr (if s.pf.ready.getLsbD 5 then s.mem.bytes addr n else []) bad))
    ∧ (s.pf.ready.getLsbD 5 = false → bad = true)
    ∧ (s.pf.ready.getLsbD 5 = true →
      (bad = true ↔ egress = true ∨ ∃ l ∈ s.poisoned, l * 64 < addr + n ∧ addr < l * 64 + 64)))
  ∧ (∀ pav q (egress : Bool), pav < 16 → q < 256 → ∃ bs, exec (.hostMemRead (0x2000000000 + 0x4000 * pav + 64 * q) ⟨64, egress⟩) s =
      .next (s.emit (.hostData (0x2000000000 + 0x4000 * pav + 64 * q) bs egress))
    ∧ leNat (bs.take 4) = (s.queue pav q).head.toNat ∧ leNat ((bs.drop 4).take 4) = (s.queue pav q).tail.toNat
    ∧ leNat ((bs.drop 8).take 4) = (s.queue pav q).dropped.toNat ∧ leNat ((bs.drop 12).take 1) = (s.queue pav q).err.toNat
    ∧ leNat ((bs.drop 16).take 4) = (s.queue pav q).errcnt.toNat)
  ∧ (∀ line, s.paKind (line * 64) = .host → s.pf.ready.getLsbD 6 = true →
    exec (.cxlSnoop line) s = .next (s.emit (.snoopData line (s.mem.bytes (line * 64) 64))))
  ∧ (∀ pav q (d : Line), s.pf.locked = true → pav < 16 → q < 256 → s.queueEnabled pav q = false → d.getLsbD 97 = true →
    let rt := rtReserved s
    let changed := (s.queue pav q).tail ≠ (s.queue pav q).head ∧ ∃ k, (s.queue pav q).lastKind = some k ∧ k ≠ d.getLsbD 96
    (descOk d = true → ¬ changed → (lineField d 13 1 ≠ 0 ∨ (rt.length < 64 ∧ rt.sum + lineField d 16 2 ≤ 7168)) →
      exec (.queueEnable pav q d) s = .next (s.setDesc pav q d))
    ∧ (descOk d = false ∨ changed ∨ (lineField d 13 1 = 0 ∧ (64 ≤ rt.length ∨ 7168 < rt.sum + lineField d 16 2)) →
      ∃ d' : Line, exec (.queueEnable pav q d) s = .next ((s.setDesc pav q d').queueError pav q 7 false)
        ∧ d'.getLsbD 97 = false))
  ∧ (∀ pav q, s.pf.locked = true → s.queueEnabled pav q = true → ∃ t, exec (.queueDisable pav q) s = .next t
    ∧ t.queueEnabled pav q = false ∧ t.mem = s.mem ∧ (t.queue pav q).head = (s.queue pav q).head
    ∧ (t.queue pav q).tail = (s.queue pav q).tail ∧ (t.queue pav q).lastKind = some (s.itemQueue pav q))
  ∧ (∀ line ecc, s.pf.scrubPeriod = 0 → exec (.patrolScrub (.memory line) ecc) s = .next s)
  ∧ (∀ (place : EccPlace) line ecc,
    (place = .memory line ∧ s.pf.scrubPeriod ≠ 0 ∧ line * 64 < 0x2000000000) ∨ place = .l2 line
      ∨ (∃ c, place = .l1 c line ∨ place = .instrCache c line ∨ place = .nodeCache c line) →
    ∃ t, exec (.patrolScrub place ecc) s = .next t ∧ (ecc = .clean → t = s) ∧ (ecc = .single → t.poisoned = s.poisoned)
      ∧ (ecc = .double ∨ ecc = .checkFailed → poisons s t line) ∧ t.waves = s.waves ∧ t.blocks = s.blocks)
  ∧ (∀ (line : Nat) (x : Sends) ecc, s.paKind (line * 64) ≠ .partner → ∃ t, exec (.patrolScrub (.hop line x) ecc) s = .next t
    ∧ t.waves = s.waves ∧ if 4 ≤ hopMismatches (s.lineCheck line) x.values then poisons s t line else t.poisoned = s.poisoned)
  ∧ (∀ k w (r : Reg), s.wave k = some w → (rd w.regs r).isRow = true → ∃ t w', exec (.patrolScrub (.row k r) .double) s = .next t
    ∧ t.wave k = some w' ∧ w' = { w with badRows := w'.badRows } ∧ (∀ q, q ∈ w'.badRows ↔ q = r ∨ q ∈ w.badRows)
    ∧ (∀ j ≠ k, t.wave j = s.wave j) ∧ t.poisoned = s.poisoned)
  ∧ (∀ k w, s.wave k = some w → let who := s.whoOf k w
    exec (.patrolScrub (.wave k) .double) s =
      .next ((s.addError (dieOf who.core) 0 2 who.core who.ctx 0).terminate who.pav who.ctx 0 w.pc))
  ∧ ∀ die n, die < 2 → n < 64 → s.pf.ready.getLsbD (7 + die) = true → ∃ t, exec (.errRecordFree die n) s = .next t
    ∧ (t.errorAt die n).getLsbD 0 = false ∧ (∀ b < 256, b ≠ 0 → (t.errorAt die n).getLsbD b = (s.errorAt die n).getLsbD b)
    ∧ ∀ d m, d < 2 → m < 64 → (d, m) ≠ (die, n) → t.errorAt d m = s.errorAt d m

/-- Answers from outside. RETRY and UNRESOLVABLE end a pending fault of a wave or a walker: it goes on and translates again, its
log entry is resolved, or it fails with `ACCESS_VIOLATION` or ILLEGAL; UNRESOLVABLE ends the context of a copy, a matrix unit, a
coverage unit or a collective; a fault record reaches a ring with room (R419). A shoot-down goes to every core and both base
dies; a unit performs what used its translations of the range, acknowledges once it owes no access of the range, and it is over
once each has (R420, R421; that a core performs all stores of an agent is assumption 12). An answer or a time-out of the partner
card lets a wave or walker go on once its whole group is answered, and reaches the entries of saved waves (R213, R426, R463).
Reads and writes of the partner card are checked, performed for the lowest pavilion that has the context (assumption 39) and
answered while the link is up (R424, R425, R457); shipped queries arrive at the pavilion of the same number or are refused, and
so do their entries (R248, R249, assumption 38). -/
def Obligations.OutsideAnswers : Prop := ∀ (s : State) (pav : Nat),
  (∀ id f, s.pendingFault pav id = some f → let t := answered s pav f
    (∀ k w, f.unit = .wave k ∨ f.unit = .sampler k ∨ f.unit = .gather k → s.wave k = some w →
      (w.wait = .fault f.id ∨ w.wait = .logRoom f.id → w.log = [] →
        exec (.faultRetry pav id) s = .next (t.setWave k { w with wait := .none })
        ∧ exec (.faultUnresolvable pav id) s =
          .next (t.raiseTrap k { w with wait := .none } { cause := .accessViolation, lanes := f.lanes, addr := f.va }))
      ∧ ∀ e, w.wait ≠ .fault f.id → w.wait ≠ .logRoom f.id → w.log = [e] → e.fltid = some f.id →
        exec (.faultRetry pav id) s = .next (t.setWave k { w with log := [{ e with fltid := none, state := .resolved }] })
        ∧ exec (.faultUnresolvable pav id) s =
          .next (t.setWave k { w with log := [{ e with fltid := none, state := .unresolvable .accessViolation }] }))
    ∧ (∀ k w, f.unit = .walker k → s.walker k = some w → w.wait = .fault f.id →
      exec (.faultRetry pav id) s = .next (t.setWalker k
        { w with wait := .none, faulted := if w.faulted = some f.id then none else w.faulted })
      ∧ exec (.faultUnresolvable pav id) s = .next (t.endWalker k { w with faulted := none } .illegal f.va))
    ∧ ((∃ core ch, f.unit = .copy core ch) ∨ (∃ pair, f.unit = .matrix pair) ∨ (∃ die, f.unit = .coverage die)
        ∨ (∃ m, f.unit = .coll m) →
      exec (.faultUnresolvable pav id) s = .next (t.terminate pav f.ctx 0x09 0)))
  ∧ (∀ f n, (s.pav pav).faults.find? (fun f => !f.posted) = some f → s.ringCount (s.pav pav).fltring.toNat 32 = some n →
    let base := (s.pav pav).fltring.toNat
    (s.mem.readLE base 4 + 2 ^ 32 - s.mem.readLE (base + 4) 4) % 2 ^ 32 < n →
    ∃ t, exec (.faultRecordPost pav) s = .next t
      ∧ ringEntry s t base 32 n (leBytes f.va.toNat 8 ++ leBytes f.id 4
        ++ leBytes (match f.kind with | .read => 0 | .write => 1 | .atomic => 2 | .fetch => 3 | .tableRead => 4) 1
        ++ leBytes f.unit.code 1 ++ leBytes f.coreField 2 ++ leBytes f.ctx 2 ++ leBytes 0 14)
      ∧ (t.pav pav).faults = (s.pav pav).faults.map fun x => if x.id = f.id then { x with posted := true } else x)
  ∧ (∀ ctx : BitVec 16, s.pf.locked = true →
    ((s.pav pav).sdBusy = true → exec (.shootdownGo pav ctx) s = .next s)
    ∧ ((s.pav pav).sdBusy = false → exec (.shootdownGo pav ctx) s = .next (s.setPav pav { s.pav pav with
        sdCtx := ctx, sdBusy := true, sdOwed := ((List.range 224).map ShootUnit.core) ++ [.die 0, .die 1] })))
  ∧ (∀ u, (s.pav pav).sdBusy = true → u ∈ (s.pav pav).sdOwed →
    let owed := (s.pav pav).sdOwed.filter fun x => x != u
    let ctx := ctxKey pav (s.pav pav).sdCtx.toNat
    let t := s.performShot pav u
    (∀ p ∈ t.stores, p ∈ s.stores) ∧ t.waves = s.waves ∧ t.blocks = s.blocks ∧ t.cores = s.cores ∧ t.pavs = s.pavs
      ∧ (∀ c, u = .core c → (∀ p ∈ t.stores, p.core = c → p.ctx = ctx → (s.pav pav).shotDown p.va p.page = false)
        ∧ ∀ x ∈ t.drQueue, x.1 ≠ dieOf c)
      ∧ (∀ d < 2, u = .die d → ∀ x ∈ (t.cover d).store, ctxKey x.2.pav x.2.ctx = ctx →
        (s.pav pav).shotDown x.2.va x.2.page = false)
      ∧ (t.shotAccess pav u = true → exec (.shootdownAck pav u) s = .next t)
      ∧ (t.shotAccess pav u = false → exec (.shootdownAck pav u) s =
        .next (t.setPav pav { s.pav pav with sdOwed := owed, sdBusy := !owed.isEmpty })))
  ∧ (∀ r, s.fabric.find? (fun x => x.id == r.id) = some r → let t := replied s r
    let more := t.fabric.any fun x => x.group == r.group
    let a (reply : FabricReply) : Answer := { ask := r.ask, reply := reply }
    (∀ k w, r.unit = .wave k ∨ r.unit = .sampler k ∨ r.unit = .gather k → s.wave k = some w → w.wait = .fabric r.group →
      let goes (reply : FabricReply) (u : State) : Prop :=
        u = { t.setWave k { w with wait := if more then w.wait else .none, answers := w.answers ++ [a reply] } with pavs := u.pavs }
          ∧ ((∀ p ∈ s.pavs, ∀ b ∈ p.2.savedBlocks, ∀ v ∈ b.waves, ∀ e : LogEntry,
            e ∈ v.2.log ∨ (∃ h, v.2.handler = some h ∧ e ∈ h.log) → e.fabric ≠ some r.group) → u.pavs = s.pavs)
      (∀ reply, s.pf.ualup = true → ∃ u, exec (.fabricResponse r.id reply) s = .next u ∧ goes reply u)
      ∧ ∃ u, exec (.fabricTimeout r.id) s = .next u ∧ goes .faultResponse u)
    ∧ ∀ k w, r.unit = .walker k → s.walker k = some w → w.wait = .fabric r.group →
      let goes (reply : FabricReply) : State :=
        t.setWalker k { w with wait := if more then w.wait else .none, answers := w.answers ++ [a reply] }
      (∀ reply, s.pf.ualup = true → exec (.fabricResponse r.id reply) s = .next (goes reply))
      ∧ exec (.fabricTimeout r.id) s = .next (goes .faultResponse))
  ∧ (∀ r : IngressReq, s.pf.ualup = true →
    (∀ c, s.importCheck r = some c → ∃ t, exec (.ingressRequest r) s = .next t ∧ t.pf.ingCount = s.pf.ingCount + 1
      ∧ .ingressFault s.fresh ∈ t.out ∧ t.waves = s.waves ∧ t.stores = s.stores
      ∧ (s.pf.ingValid = true → t.pf.ingCause = s.pf.ingCause ∧ t.pf.ingAddr = s.pf.ingAddr)
      ∧ (s.pf.ingValid = false → t.pf.ingValid = true ∧ t.pf.ingCause = BitVec.ofNat 3 c
        ∧ t.pf.ingIndex = BitVec.ofNat 12 r.index ∧ t.pf.ingAddr = BitVec.ofNat 64 r.offset))
    ∧ ∀ l, s.importCheck r = none →
      let ctx := s.importField r.index 6 2
      let p := s.importPav ctx
      let s₁ := { s with fresh := s.fresh + 1 }
      let who : Who := { core := 0, pav := p, ctx := ctx, block := s.fresh + 1, uid := s.fresh + 1 }
      (s₁.setCore 0 (s₁.loadCtx {} p ctx)).resolve who r.kind false (s.importField r.index 8 8 + r.offset) r.size = .ok l →
      (∀ x ∈ l, x.partner = false) →
      (r.kind = .read → exec (.ingressRequest r) s =
        .next (s₁.emit (.ingressData s.fresh (s.homeBytes l) (l.any s.spanPoisoned))))
      ∧ (r.kind = .write → exec (.ingressRequest r) s =
        .next ((s₁.engineStore who.ctxKey (spanCells l (r.data.take r.size))).emit (.ingressData s.fresh [] false))))
  ∧ (∀ p, s.ingress.find? (fun x => x.id == p.id) = some p → ∃ t, exec (.ingressTimeout p.id) s = .next t
    ∧ t.ingress = s.ingress.filter (fun x => x.id != p.id) ∧ t.pf.ingCount = s.pf.ingCount + 1
    ∧ (s.pf.ualup = true → .ingressFault p.id ∈ t.out)
    ∧ (s.pf.ualup = false → OutMsg.ingressFault p.id ∈ t.out → OutMsg.ingressFault p.id ∈ s.out)
    ∧ (s.pf.ingValid = false → t.pf.ingCause = 6))
  ∧ (∀ m : HandoffMsg, s.pf.ualup = true →
    (s.ctxValid m.pav m.ctx = false ∨ s.hostOf (m.core / 2) = none →
      exec (.handoffArrival m) s = .next (s.emit (.handoffRefused m.origin)))
    ∧ (s.ctxValid m.pav m.ctx = true → (s.hostOf (m.core / 2)).isSome = true → s.paused m.pav m.ctx = false →
      (s.core m.core).fifo.length < 256 →
      exec (.handoffArrival m) s = .next { s.setCore m.core { s.core m.core with fifo := (s.core m.core).fifo ++
        [{ query := 0, prog := m.prog, block := s.fresh, handoff := some m }] } with fresh := s.fresh + 1 }))
  ∧ (∀ k w ref, s.walker k = some w → w.wait = .remote ref →
    exec (.remoteWalkerTimeout k) s = .next (s.endWalker k w .fabric ref))
  ∧ ∀ query status payload record,
    (s.walkerOf query = none → s.walkerSaved query = false → ∃ t, exec (.remoteEntryArrival query status payload record) s = .next t
      ∧ t.pf.ingCount = s.pf.ingCount + 1 ∧ t.cores = s.cores)
    ∧ ∀ k w, s.walkerOf query = some (k, w) → let e : SluiceEntry := { tag := w.tag, status := status, payload := payload }
      (w.isRemote = false → ∃ t, exec (.remoteEntryArrival query status payload record) s = .next t
        ∧ t.pf.ingCount = s.pf.ingCount + 1 ∧ t.cores = s.cores)
      ∧ (w.isRemote = true → w.faulted = none → (∀ r ∈ s.fabric, r.unit ≠ .walker k) →
        (1 ≤ status → status ≤ 4 → s.canPost k w false = true →
          exec (.remoteEntryArrival query status payload record) s = .next ((s.setWalker k w).postEntry k w e false))
        ∧ ∀ t, status = 0 ∨ 5 ≤ status → s.canPost k w true = true → w.shipped = none →
          s.walkerStores k w [(w.query, lineBytes record)] = .ok t →
          exec (.remoteEntryArrival query status payload record) s = .next ((t.setWalker k w).postEntry k w e true))

/-- Steps that complete what waits. An instruction that waits for room executes again, as its wave's instruction (R144, R235,
R290, R347, R390), but on a halted core, where no entry replays and no trap is delivered either (R221). Data that a load is owed
arrives (R68); a double-bit error, a failing check value or a fourth mismatch on a hop ends the context (R427, R428, R430). A
store is performed at its home unless an older one of its agent shares a byte (R177, R178), its line poisoned by a fourth
mismatch (R427), and a DR store reaches the other replica (R191). A resolved log entry replays, unless a row that it reads is
poisoned (R336, R428), and a trap that is due is delivered (R207, R213). A free matrix unit goes to a block that waits for it
(R306). Walkers go on and post, and the lowest free one takes a query, its record before its program (R230, R233 to R235, R242,
assumption 72); lookup logs reach their ring (R378, R379). That owed loads return oldest first is assumption 11, that a store
goes to its home line by line assumption 10, and what the tests of lines and hops find assumption 26. -/
def Obligations.PendingWork : Prop := ∀ s : State,
  (∀ k w i e, s.wave k = some w → retries k i e w.wait →
    ((s.core (coreOf k)).halted = true → exec e s = .next s)
    ∧ ((s.core (coreOf k)).halted = false → ∃ t, exec i { s with cur := k } = .next t
      ∧ exec e s = .next { t.afterRetire k w.pc (activeMask w) w.wsStep with cur := s.cur }))
  ∧ (∀ k w o rest n hop, s.wave k = some w → w.owed = o :: rest →
    let line := (o.lines[n]?).getD 0
    let t := s.setWave k { w with owed := rest }
    exec (.loadReturn k ⟨.clean, n, ⟨hop, [s.lineCheck line]⟩⟩) s = .next t
    ∧ (∃ u, exec (.loadReturn k ⟨.single, n, ⟨hop, [s.lineCheck line]⟩⟩) s = .next u ∧ u.waves = t.waves
      ∧ ∀ l ∈ u.poisoned, l ∈ s.poisoned)
    ∧ ∀ ecc sends, ecc = .double ∨ ecc = .checkFailed ∨ (4 ≤ sends.length ∧ ∀ x ∈ sends.take 4, x ≠ s.lineCheck line) →
      ∃ u, exec (.loadReturn k ⟨ecc, n, ⟨hop, sends⟩⟩) s = .next u ∧ (ecc = .double ∨ ecc = .checkFailed → line ∈ u.poisoned)
        ∧ ∀ x, s.block w.block = some x → ∀ k' v, (k', v) ∈ u.waves → v.block ≠ w.block)
  ∧ (∀ l₁ p l₂ idx, s.stores = l₁ ++ p :: l₂ → (l₁.filter fun q => q.agent == p.agent).length = idx →
    let clash := ∃ q ∈ l₁, q.agent = p.agent ∧ ∃ c ∈ q.cells, ∃ d ∈ p.cells, c.1 = d.1
    let line := (p.cells.head?.map fun c => c.1 / 64).getD 0
    (∀ hops, clash → exec (.memoryPerform p.agent idx hops) s = .next s)
    ∧ (¬ clash → (p.cells.map fun c => c.1).Nodup → ∃ t, exec (.memoryPerform p.agent idx {}) s = .next t
      ∧ t.stores = l₁ ++ l₂ ∧ (∀ c ∈ p.cells, t.mem.read c.1 = c.2)
      ∧ (∀ k, (∀ c ∈ p.cells, c.1 ≠ k) → t.mem.read k = s.mem.read k)
      ∧ t.drQueue = s.drQueue ++ (match p.replicated with
        | some die => [(die, p.cells.map fun c => (otherReplica c.1, c.2))]
        | none => [])
      ∧ onlyMemory s t)
    ∧ (¬ clash → ∀ (hops : Sends) t, 4 ≤ hops.values.length → exec (.memoryPerform p.agent idx {}) s = .next t →
      (∀ x ∈ hops.values.take 4, x ≠ t.lineCheck line) →
      ∃ u, exec (.memoryPerform p.agent idx hops) s = .next u ∧ line ∈ u.poisoned ∧ u.stores = t.stores))
  ∧ (∀ l₁ die cells l₂, s.drQueue = l₁ ++ (die, cells) :: l₂ → (∀ x ∈ l₁, x.1 ≠ die) →
    exec (.drPropagate die) s = .next ({ s with drQueue := l₁ ++ l₂ }.performCells cells))
  ∧ (∀ k w n e, s.wave k = some w → w.log[n]? = some e → e.state = .resolved → e.fabric = none → w.wait ≠ .saved →
    w.wait ≠ .halted →
    ((s.core (coreOf k)).halted = true → exec (.logReplay k n) s = .next s)
    ∧ ((s.core (coreOf k)).halted = false → e.holds = true →
      exec (.logReplay k n) s = .next (s.setWave k { w with log := w.log.eraseIdx n, wait := .none }))
    ∧ ((s.core (coreOf k)).halted = false → e.holds = false → (replayOf e.instr).isSome = true →
      (e.view w (w.log.eraseIdx n)).struck e.instr = true → exec (.logReplay k n) s = .next (s.setWave k
        { w with log := w.log.set n { e with state := .unresolvable .poison, failLanes := 0, faddr := 0 } }))
    ∧ ((s.core (coreOf k)).halted = false → e.holds = false → (replayOf e.instr).isSome = true →
      (e.view w (w.log.eraseIdx n)).struck e.instr = false →
      ∃ t, exec e.instr { s.setWave k (e.view w (w.log.eraseIdx n)) with cur := k } = .next t
        ∧ exec (.logReplay k n) s = .next { t.afterReplay k w n e with cur := s.cur }))
  ∧ (∀ k w, s.wave k = some w → w.wait ≠ .saved → w.wait ≠ .halted → (s.core (coreOf k)).halted = false →
    (w.wait = .log ∨ s.inFlight w = false) →
    (∀ t, w.heldTrap = some t → w.log = [] → exec (.trapDeliver k) s = .next (s.takeTrap k w t w.pc w.pc 0))
    ∧ ∀ e c rest, w.heldTrap = none → w.log = e :: rest → e.state = .unresolvable c →
      exec (.trapDeliver k) s = .next (s.takeTrap k w { cause := c, lanes := e.failLanes, addr := e.faddr, line := e.line } e.pc w.pc
        e.past))
  ∧ (∀ pair block k w, (s.unit pair).owner = none → (k, w) ∈ s.waves → w.block = block → w.wait = .owner pair →
    ∃ t, exec (.matrixOwnershipGrant pair block) s = .next t
      ∧ t.unit pair = { ({} : MatrixUnit) with owner := some block, redx := (s.unit pair).redx }
      ∧ ∀ k', t.wave k' = (s.wave k').map fun v =>
          if v.block = block ∧ v.wait = .owner pair then { v with wait := .none } else v)
  ∧ (∀ k w, s.walker k = some w →
    (∀ line (hops : Sends), (∃ id, w.wait = .fault id ∧ ∀ f ∈ (s.pav (s.walkerWho k w).pav).faults, f.id ≠ id)
      ∨ (∃ id, w.wait = .fabric id ∧ ∀ r ∈ s.fabric, r.group ≠ id) ∨ (∃ dies, w.wait = .cover dies ∧ s.coverRoom dies = true)
      ∨ (w.wait = .link ∧ s.pf.ualup = true) →
      exec (.walkerWaitEnd ⟨k, line, hops⟩) s = .next (s.setWalker k { w with wait := .none }))
    ∧ (∀ line (hops : Sends), w.wait = .none → 4 ≤ hops.values.length → (∀ x ∈ hops.values.take 4, x ≠ s.lineCheck line) →
      ∃ t, exec (.walkerWaitEnd ⟨k, line, hops⟩) s = .next t ∧ t.walker k = some { w with struck := some line })
    ∧ ∀ e terminal f, w.wait = .post e terminal f →
      (s.canPost k w terminal = true → exec (.sluicePost k) s = .next (s.postOrWait k w e terminal f))
      ∧ (s.canPost k w terminal = false → exec (.sluicePost k) s = .next s))
  ∧ (∀ core e rest n, (s.core core).fifo = e :: rest → e.handoff = none → (s.core core).halted = false →
    (s.hostOf (core / 2)).isSome = true → n < s.walkerSlots core → n < 64 → Assoc.find (s.core core).walkers n = none →
    (∀ m < n, Assoc.find (s.core core).walkers m ≠ none) →
    let k := core * 64 + n
    let w : Walker := { uid := s.fresh, block := e.block, launch := s.fresh, w := Vector.replicate 16 0, pc := 0,
                        query := e.query, tag := 0, spill := 0, prog := emptyProgram e.prog, start := .query }
    let t := { (s.setCore core { s.core core with fifo := rest }).setWalker k w with fresh := s.fresh + 1 }
    ∀ bs, t.walkerRead k w .read e.query 64 = .ok bs →
      let q := lineOf bs
      let x : Walker := { w with
        w := #v[e.query, BitVec.ofNat 64 (lineField q 0 8), BitVec.ofNat 64 (lineField q 8 8), 0, 0, 0, 0, 0, 0, 0, 0, 0, 0, 0, 0, 0],
        tag := BitVec.ofNat 32 (lineField q 8 4), spill := BitVec.ofNat 64 (lineField q 56 8), start := .header }
      let t₁ := t.countRead k w 64
      (∀ code p, t₁.readProgram k x = .ok (code, p) →
        exec (.queryStart core) s = .next ((t₁.countRead k x (64 + 80 * p.ndec)).setWalker k
          { x with pc := code, prog := p, start := .running }))
      ∧ ∀ st payload, t₁.readProgram k x = .error (.ended st payload) →
        exec (.queryStart core) s = .next (t₁.endWalker k x st payload))
  ∧ ∀ pav x n, s.logs.find? (fun y => y.pav == pav) = some x → s.ringCount (s.pav pav).fbring.toNat 16 = some n →
    let base := (s.pav pav).fbring.toNat
    let used := (s.mem.readLE base 4 + 2 ^ 32 - s.mem.readLE (base + 4) 4) % 2 ^ 32
    ∃ t, exec (.feedbackLog pav) s = .next t ∧ t.logs = s.logs.erase x
      ∧ (used < n → ringEntry s t base 16 n (feedbackBytes x))
      ∧ (n ≤ used → t.mem.readLE (base + 8) 4 = (s.mem.readLE (base + 8) 4 + 1) % 2 ^ 32 ∧ t.mem.readLE (base + 12) 1 = 1)

/-- Debugging, gang stop and pre-emption. A core's debug module attaches to a context that may be debugged, detaches, halts and
releases its core (R435, R438); on a halted wave it steps, skips a breakpoint, resumes, saves its image to BUF where the context
may be debugged, and restores it from a legal image there (R436); a command to a slot that is not halted is ignored. GANG_STOP
halts every core that holds a block of the pavilion and latches its record (R221). A Belvedere tick falls due as CLOCK passes a
multiple of 2^N, and writes each core's record, which begins with the tick and the core's number, to the ring (R441). GO sets
BUSY with every engine that holds named work owing its acknowledgement, or completes at once where none does; an engine that may
stop acknowledges, and a wave that stops has its image saved; RESUME clears SAVED and leaves what was saved to return (R219,
R220, R447). A failed pair without work, and without work on the pair that comes to host its cores, is mapped out: its logical
pair gets the host that R433 names, or none where there is none. Where a debugger may attach and which cores are a pavilion's is
assumption 48, the order in which engines stop 42, and the corners of a mapping-out 44. -/
def Obligations.DebugAndPreemption : Prop := ∀ s : State,
  (∀ core, let d := (s.core core).dbg
    (∀ ctx : BitVec 16, core < 224 → ∃ ok : Bool,
      (ok = true ↔ s.pf.drvfeat.getLsbD 4 = true ∧ ∃ c x, (c, x) ∈ s.ctxs ∧ c % 65536 = ctx.toNat ∧ x.debuggable = true)
      ∧ exec (.debugAttach core ctx) s =
        .next (onlyDebug s core { d with ctx := ctx.toNat, attached := ok, refused := !ok }))
    ∧ exec (.debugDetach core) s = .next (onlyDebug s core { d with attached := false })
    ∧ exec (.debugHalt core) s = .next (onlyDebug s core { d with halt := true })
    ∧ (∃ t, exec (.debugRelease core) s = .next t
      ∧ t.core core = { s.core core with gangHalt := false, dbg := { d with halt := false } } ∧ (∀ c ≠ core, t.core c = s.core c)
      ∧ ∀ k, t.wave k = (s.wave k).map fun w => if w.wait = .engines then { w with wait := .none } else w)
    ∧ ∀ slot w, isHalted s core slot w → let k := core * 32 + slot
      exec (.debugStep core slot) s = .next (s.setWave k (letGo { w with wsStep := true }))
      ∧ exec (.debugSkipBreakpoint core slot) s = .next (s.setWave k { w with skipBreak := true })
      ∧ exec (.debugResume core slot) s = .next (s.setWave k (letGo w))
      ∧ (∀ t, s.debuggable (s.whoOf k w).pav (s.whoOf k w).ctx = true →
        s.saveImage k w d.buf.toNat w.wsCause.toNat = some t → exec (.debugSave core slot) s = .next t)
      ∧ ∀ im, let saved : SavedWave := { depth := w.depth, kinds := w.kinds, step := w.wsStep, priv := w.wsPriv, log := w.log }
        imageReads s (s.whoOf k w) d.buf.toNat saved im → imageLegal im w.gbudget.toNat (retainedRows w.log).length →
        fieldOf im.head 0 8 % 4 = 0 → ∃ w', restoredAs w w' saved im
          ∧ exec (.debugRestore core slot) s =
            .next (s.setWave k { w' with handler := w.handler, trapLog := w.trapLog, wait := w.wait }))
  ∧ (∀ core slot i, i = .debugStep core slot ∨ i = .debugSkipBreakpoint core slot ∨ i = .debugResume core slot
      ∨ i = .debugSave core slot ∨ i = .debugRestore core slot → (∀ w, ¬ isHalted s core slot w) → exec i s = .next s)
  ∧ (∀ pav, ∃ t, exec (.gangStop pav) s = .next t ∧ t = { s with cores := t.cores }
    ∧ ∀ c < 224,
      ((∃ b x, (b, x) ∈ s.blocks ∧ x.pav = pav ∧ (x.half c).isSome = true) → t.core c = { s.core c with
        gangHalt := true, dbg := { (s.core c).dbg with gsClock := s.clock, gsSent := (s.core c).sent, gsRecv := (s.core c).recv,
                                                       gsValid := true } })
      ∧ ((∀ b x, (b, x) ∈ s.blocks → x.pav = pav → (x.half c).isSome = false) → t.core c = s.core c))
  ∧ (s.pf.drvfeat.getLsbD 3 = true → s.pf.bvctl.getLsbD 0 = true → 8 ≤ (s.pf.bvctl.extractLsb' 1 5).toNat →
    let n := 2 ^ (s.pf.bvctl.extractLsb' 1 5).toNat
    let tick := s.clock.toNat / n * n
    (s.clock.toNat / n ≠ s.tick.clock.toNat / n → s.tick.tickDue = true)
    ∧ (s.clock.toNat / n = s.tick.clock.toNat / n → s.tick.tickDue = s.tickDue)
    ∧ (s.tickDue = true → exec .belvedereTick s = .next (((List.range 224).map (s.belvedereRecord tick)).foldl
      (fun (t : State) r => t.ringPostUnits s.pf.bvring.toNat r) { s with tickDue := false }))
    ∧ (s.tickDue = false → exec .belvedereTick s = .next s)
    ∧ (∀ c < 224, let r := s.belvedereRecord tick c
      r.length % 16 = 0 ∧ leNat (r.take 8) = tick ∧ leNat ((r.drop 8).take 2) = c)
    ∧ ∀ (t : State) (base n : Nat) (r : List Byte), t.ringCount base 16 = some n → r.length = 16 →
      (t.mem.readLE base 4 + 2 ^ 32 - t.mem.readLE (base + 4) 4) % 2 ^ 32 < n → ringEntry t (t.ringPostUnits base r) base 16 n r)
  ∧ (∀ pav, pav < 16 → s.pf.locked = true →
    (∀ x : BitVec 16, (s.pav pav).busy = true → exec (.preemptGo pav x) s = .next s ∧ exec (.preemptResume pav) s = .next s)
    ∧ (∀ x : BitVec 16, (s.pav pav).busy = false →
      let p := { s.pav pav with pctx := x, goCtx := x, busy := true }
      let owed := (s.setPav pav p).enginesOf pav
      (owed ≠ [] → ∃ t, exec (.preemptGo pav x) s = .next t ∧ onlyPav s t pav { p with stopOwed := owed })
      ∧ (owed = [] → ∃ t, exec (.preemptGo pav x) s = .next t ∧ (t.pav pav).busy = false ∧ (t.pav pav).saved = true))
    ∧ (∀ e, e ∈ (s.pav pav).stopOwed → s.mayStop pav e = true →
      exec (.engineStop pav e) s = .next (((s.setPav pav { s.pav pav with
        stopOwed := (s.pav pav).stopOwed.filter fun x => x != e }).stopEngine pav e).finishPreempt pav))
    ∧ (∀ (t u : State) k w, t.wave k = some w → w.handler = none → (∀ p q d, w.wait ≠ .item p q d) → w.wait ≠ .ending →
      w.wait ≠ .saved → w.wait ≠ .passed → t.saveImage k w (t.saveArea (t.whoOf k w).pav (t.whoOf k w).ctx k) 0 = some u →
      (t.stopWave k).wave k = some { w with wait := .saved } ∧ (t.stopWave k).mem = u.mem)
    ∧ (∀ e, e ∈ (s.pav pav).stopOwed → s.mayStop pav e = false → exec (.engineStop pav e) s = .next s)
    ∧ ((s.pav pav).busy = false → s.strandedQueries (s.pav pav).savedWork = [] →
      ∃ t, exec (.preemptResume pav) s = .next t ∧ (t.pav pav).saved = false
      ∧ (t.pav pav).savedCtxs = [] ∧ (t.pav pav).savedBlocks = (s.pav pav).savedBlocks ∧ t.waves = s.waves ∧ t.blocks = s.blocks)
    ∧ (Assoc.rising s.pavs = true → (s.pav pav).busy = false → (s.pav pav).savedBlocks = [] → (s.pav pav).savedWork = {} →
      ∃ t, exec (.preemptResume pav) s = .next t ∧ onlyPav s t pav { s.pav pav with saved := false, savedCtxs := [] }))
  ∧ ∀ pair < 112, s.pf.mapoutBusy = false → pair ∉ s.failed → s.hostedBy pair = [pair] →
    let m := { s with pf := { s.pf with mapout := BitVec.ofNat 7 pair, mapoutBusy := true } }
    m.pavsOn ([pair] ++ m.newHosts [pair]) = [] → s.pf.mapoutPavs = [] →
    ∃ t, exec (.mapout (BitVec.ofNat 32 pair)) s = .next t ∧ exec (.pairMapOut pair) s = .next t
      ∧ t.failed = distinct (s.failed ++ [pair]) ∧ t.pf.mapoutBusy = false ∧ (∀ p ≠ pair, t.hostOf p = s.hostOf p)
      ∧ (∀ h, t.hostOf pair = some h → h ≠ pair ∧ h ∉ s.failed ∧ h / 56 = pair / 56 ∧ (∀ q < 112, s.hostOf q = some h → q = h)
        ∧ ∀ h' < h, h' ≠ pair → h' ∉ s.failed → h' ∉ s.pf.marked → h' / 56 = pair / 56 →
          ∃ q < 112, q ≠ h' ∧ s.hostOf q = some h')
      ∧ (t.hostOf pair = none → ∀ h < 112, h ≠ pair → h ∉ s.failed → h ∉ s.pf.marked → h / 56 = pair / 56 →
        ∃ q < 112, q ≠ h ∧ s.hostOf q = some h)

/-- The distributors. What a die does next is its chance: a stopped block returns, a record starts, or a block is placed. A
record that starts makes a grid with the values of the record and of its launch header, and the other die owes its share (R402
to R404); one with bad fields is discarded with ERR 5, 4 or 6 (R398, R407), and one that lies on a poisoned line ends its
context (R429). Blocks are placed with their waves in the start state and their scratchpads reading zero (R36 to R43), and no
block takes another's block slot (R39, the model's choice of assumption 58); a die with room takes the highest half of the
other's unplaced blocks (R405), and a persistent grid waits for room for all its blocks (R406). A waiting `DEQ` receives the
head item (R146). A wave that owes nothing ends, and a block whose work is done completes (R139, R140). ERR 4 for an ill-formed
record with ERR 5 judged first is assumption 33, the memory that a launch reads its code from 14, and persistent admission
behind returning blocks 69; a record on a poisoned line is 60. -/
def Obligations.Scheduling : Prop := ∀ s : State,
  (∀ die, s.chance die = none → ∀ src, exec (.recordStart die src) s = .next s)
  ∧ (∀ die pav q h, s.queueHead die pav q = some h → s.chance die = some (.start h) →
    (∀ line, s.headStruck h = some line → exec (.recordStart die (.queue pav q)) s = .next (s.poisonHead h line))
    ∧ (s.headStruck h = none →
    (recExtents h.record = none → exec (.recordStart die (.queue pav q)) s = .next ((s.dropHead h).queueError pav q 5 false))
    ∧ ∀ e, recExtents h.record = some e →
      (s.ctxValid h.pav h.ctx = false ∨ recordOk h.record = false →
        exec (.recordStart die (.queue pav q)) s = .next ((s.dropHead h).queueError pav q 4 false))
      ∧ ∀ l v, s.ctxValid h.pav h.ctx = true → recordOk h.record = true →
        s.distSpans die pav h.ctx (recFrame h.record - 528).toNat 16 = .ok l →
        (∀ x ∈ l, x.partner = false ∧ s.spanPoisoned x = false) → headerFields (s.homeBytes l) h.mayPriv = some v →
        (recPersistent h.record = true → (∃ n x, (n, x) ∈ s.grids ∧ x.persistent = true ∧ x.pav = h.pav ∧ x.ctx = h.ctx) →
          exec (.recordStart die (.queue pav q)) s = .next ((s.dropHead h).queueError pav q 6 false))
        ∧ (recPersistent h.record = false → ∃ t, exec (.recordStart die (.queue pav q)) s = .next t
          ∧ Assoc.find t.grids s.fresh = some (gridOf s die pav q h v e)
          ∧ (t.queue pav q).head = (s.queue pav q).head + 1 ∧ (t.queue pav q).current = some s.fresh
          ∧ (recGrid h.record = true → (t.queue pav q).predecessor = some s.fresh)
          ∧ t = { s with grids := t.grids, pavs := t.pavs, fresh := s.fresh + 1 }
          ∧ (recAfter h.record ≠ 0 → exec (.gridTriggered pav q) s = .next t))))
  ∧ (∀ grid g, Assoc.find s.grids grid = some g →
    (∀ die < 2, s.pf.ready.getLsbD (11 + die) = true → exec (.gridRecordReceive die grid) s =
      .next { s with grids := Assoc.set s.grids grid { g with received := g.received.setIfInBounds die true } })
    ∧ (∀ die, s.maySteal die grid g = true → let u := (g.unplaced[1 - die]?).getD []
      ∃ t, exec (.stealMessage die grid) s = .next t
        ∧ Assoc.find t.grids grid = some { g with
            unplaced := g.unplaced.setIfInBounds (1 - die) (u.take (u.length - u.length / 2)),
            stealOut := g.stealOut.setIfInBounds die true }
        ∧ (t.dist die).replies = (s.dist die).replies ++ [(grid, u.drop (u.length - u.length / 2))])
    ∧ (∀ die l rest, die < 2 → (s.dist die).replies = (grid, l) :: rest → ∃ t g', exec (.stealReply die) s = .next t
      ∧ (t.dist die).replies = rest ∧ Assoc.find t.grids grid = some g'
      ∧ (g'.unplaced[die]?).getD [] = sortBy id (((g.unplaced[die]?).getD []) ++ l)
      ∧ g'.stealOut = g.stealOut.setIfInBounds die false ∧ (l = [] → (g'.stealDone[die]?).getD false = true))
    ∧ (∀ t, g.persistent = true → g.admitted = false → (∀ r ∈ g.received.toList, r = true) → s.paused g.pav g.ctx = false →
      (∀ n x, (n, x) ∈ s.grids → x.persistent = true → x.admitted = false → s.paused x.pav x.ctx = false → g.cls ≤ x.cls) →
      (∀ y ∈ s.returning, g.cls < y.2.cls) → s.placeGrid grid g = some t →
      exec (.persistentGridAdmit grid) s = .next t))
  ∧ (∀ core n b sc slots base, s.admitHalf core n b sc = some (slots, base) →
    (∀ k, slots.head? = some k → k ∉ s.blockSlots core) ∧ (∀ k ∈ slots, s.wave k = none) ∧ slots.length = n)
  ∧ (∀ die < 2, s.pf.ready.getLsbD (11 + die) = true →
    (∀ p ∈ s.pavs, p.2.savedWork.walkers = [] ∧ p.2.savedWork.fifo = [] ∧ p.2.savedWork.triangles = []) →
    (s.chance die = none → exec (.blockPlacement die) s = .next s)
    ∧ (∀ pav b t, s.chance die = some (.back pav b) → s.tryReturn pav b = some t → exec (.blockPlacement die) s = .next t)
    ∧ ∀ gid g n core slots base, s.chance die = some (.place gid n g [(core, slots, base)]) → slots.Nodup →
      s.descPoison g.pav g.ctx = none →
    ∃ t, exec (.blockPlacement die) s = .next t
      ∧ (∀ j k, slots[j]? = some k → ∃ w, t.wave k = some w ∧ w.block = s.fresh ∧ startsAs w g n j)
      ∧ (∀ k ∉ slots, t.wave k = s.wave k)
      ∧ (∃ x, t.block s.fresh = some x ∧ x.pav = g.pav ∧ x.ctx = g.ctx ∧ x.grid = gid ∧ x.linear = n ∧ x.alive = slots
        ∧ x.scratch = g.scratch ∧ (x.x, x.y, x.z) = (n % g.x, n / g.x % g.y, n / (g.x * g.y))
        ∧ ∃ h, x.halves = [h] ∧ h.core = core ∧ h.base = base ∧ h.blockSlot = slots.head?.getD 0 % 32)
      ∧ (∀ o < g.scratch, t.mem.read (scratchKey core (base + o)) = 0)
      ∧ (∀ k, k < scratchKey core base ∨ scratchKey core base + g.scratch ≤ k → t.mem.read k = s.mem.read k)
      ∧ ∃ g', Assoc.find t.grids gid = some g' ∧ g'.placed = g.placed + 1)
  ∧ (∀ pav q k rest w p n (d : Reg), (s.queue pav q).waiting = k :: rest → s.wave k = some w → w.wait = .item p n d →
    isCreated s pav q = true → s.itemQueue pav q = true → (s.queue pav q).tail ≠ (s.queue pav q).head → d.toNat ≤ 240 →
    pairsOk w.regs → w.roomFor 32 → w.wsStep = false → w.watchHit = none → (s.core (coreOf k)).halted = false →
    s.headPoison pav q = none →
    let st := s.queue pav q
    let item := s.mem.readLE (s.queueRing pav q + 64 * (st.head.toNat % s.queueCap pav q)) 64
    ∃ t R, exec (.deqDeliver pav q) s = .next t ∧ t.wave k = some { wentOn w with regs := R }
      ∧ t.queue pav q = { st with waiting := rest, head := st.head + 1 } ∧ (∀ k' ≠ k, t.wave k' = s.wave k') ∧ t.mem = s.mem
      ∧ (∀ r : Reg, (∀ j < 16, r ≠ regAt d j) → ∀ j < 32, lane R r j = lane w.regs r j)
      ∧ ∀ m < 16, ∀ j < 32, lane R (regAt d m) j =
          if w.exec.getLsbD j then BitVec.ofNat 32 (item / 2 ^ (32 * m)) else lane w.regs (regAt d m) j)
  ∧ (∀ k w x, s.wave k = some w → w.wait = .ending → s.block w.block = some x → x.barriers = Vector.replicate 16 [] →
    (w.owed ≠ [] ∨ w.log ≠ [] → exec (.waveEnd k) s = .next s)
    ∧ (w.owed = [] → w.log = [] → ∃ t, exec (.waveEnd k) s = .next t ∧ t.wave k = none ∧ (∀ j ≠ k, t.wave j = s.wave j)
      ∧ Assoc.find t.exited k = some (w.block, w.pc - 4)
      ∧ ∃ y, t.block w.block = some y ∧ y.alive = x.alive.filter (fun j => j != k) ∧ y.halves = x.halves
        ∧ y.triggered = true ∧ (y.alive = [] → ∀ p ∈ t.stores, p.agent ∈ x.agents → p.unordered = true)))
  ∧ ∀ b x g, s.block b = some x → Assoc.find s.grids x.grid = some g → x.alive = [] → s.blockBusy b = false →
    (s.pav x.pav).busy = false → ∃ t, exec (.blockComplete b) s = .next t ∧ t.block b = none
      ∧ (∀ p, (s.unit p).owner = some b → t.unit p = { ({} : MatrixUnit) with redx := (s.unit p).redx })
      ∧ (g.complete + 1 = g.x * g.y * g.z → Assoc.find t.grids x.grid = none)
      ∧ (g.complete + 1 ≠ g.x * g.y * g.z → Assoc.find t.grids x.grid = some { g with complete := g.complete + 1 })
      ∧ t.waves = s.waves ∧ t.mem = s.mem

/-- The engines. A chunk of a contiguous copy within this card writes the bytes it reads (R293), and a transfer whose bytes are
performed retires in order (R286, R292). Scatter messages and collective contributions act on memory at their homes (R299, R300).
The matrix operation at the head of a loaded unit is applied and retires (R331): products by K-block, exact and rounded or
saturated (R321, R322), the slot operations (R347, R348, R352, R353), and a reduction aligned to its slot's exponent (R354). A
triangle arrives while its bins have room, and commits in its stream's order (R389, R391, R393); a tile is resolved with the
triangles binned so far and spills to memory (R392). -/
def Obligations.EngineSteps : Prop := ∀ s : State,
  (∀ core ch t x src dst, ((s.core core).chans[ch]?.getD []).find? (fun t => decide (t.doneBytes < t.total)) = some t →
    s.block t.block = some x → t.fault = none → t.fabric = none → t.kind = 0 → t.fill = false →
    let n := Nat.min 4096 (t.total - t.doneBytes)
    let who : Who := { core := core, pav := x.pav, ctx := x.ctx, block := t.block, uid := t.uid }
    s.resolve who .read false (t.reg 0 + BitVec.ofNat 64 t.doneBytes).toNat n = .ok src →
    s.resolve who .write true (t.reg 1 + BitVec.ofNat 64 t.doneBytes).toNat n = .ok dst →
    (∀ y ∈ src ++ dst, y.partner = false ∧ s.peerHalted core y = false) → (∀ y ∈ src, s.spanPoisoned y = false) →
    exec (.copyChunk core ch) s = .next (((s.onTransfer core ch (fun y => y == t) fun y =>
      { y with doneBytes := y.doneBytes + n, answers := [] }).engineStore who.ctxKey (spanCells dst (s.homeBytes src))).countBytes
        who n n 0))
  ∧ (∀ core ch t x h, ((s.core core).chans[ch]?.getD []).find? (fun y => y.id == t.id && decide (y.total ≤ y.doneBytes)) = some t →
    t.co = false → s.block t.block = some x → x.halves = [h] → h.core = t.core → ch < 4 →
    ∃ u y h', exec (.transferRetire core ch t.id) s = .next u ∧ u.block t.block = some y ∧ y.halves = [h'] ∧ h'.next = h.next
      ∧ (h.retired = [] → (h.done[ch]?).getD 1 = t.id → (h'.done[ch]?).getD 1 = t.id + 1)
      ∧ (h.retired = [] → (h.done[ch]?).getD 1 ≠ t.id → h'.done = h.done)
      ∧ u.mem = s.mem ∧ ∀ z ∈ ((u.core core).chans[ch]?).getD [], z ≠ t)
  ∧ (∀ core m rest, (s.core core).inbox = m :: rest → (s.core core).halted = false →
    ∃ t, exec (.elementAccess core) s = .next t ∧ (t.core core).inbox = rest
      ∧ (∀ a data, m.op = .store a data → t.mem.bytes a data.length = data
        ∧ ∀ k, k < a ∨ a + data.length ≤ k → t.mem.read k = s.mem.read k)
      ∧ ∀ a ty sat x, m.op = .add a ty sat x →
        t.mem.readLE a ty.bytes = (atomicAdd ty sat (BitVec.ofNat 64 (s.mem.readLE a ty.bytes)) x).toNat % 256 ^ ty.bytes
        ∧ ∀ k, k < a ∨ a + ty.bytes ≤ k → t.mem.read k = s.mem.read k)
  ∧ (∀ m rest e x, s.colls = m :: rest → m.fabric = none → (∀ y ∈ rest, y.id ≠ m.id) → s.paKind m.frame ≠ .partner →
    m.data = [(e, x)] → m.ord ≠ 3 →
    let n := m.ty.bytes
    let pa := m.frame + m.offset + e * n + (if m.frame ∈ s.sel then 0 else m.size)
    let old := BitVec.ofNat 64 (s.mem.readLE pa n)
    let new := if m.op = 0 then atomicAdd m.ty m.sat old x else extreme (decide (m.op = 2)) m.ty old x
    ∃ t, exec .collCombine s = .next t ∧ t.colls = rest ∧ t.mem.readLE pa n = new.toNat % 256 ^ n
      ∧ ∀ k, k < pa ∨ pa + n ≤ k → t.mem.read k = s.mem.read k)
  ∧ (∀ pair o rest, (s.unit pair).ops = o :: rest → o.fault = none → o.fabric = none → s.switchUnit pair = s →
    let u := s.unit pair
    (∀ u' check, unitAfter u o.kind = some u' → ∃ t, exec (.matrixOpRetire pair check) s = .next t ∧ opRetired t pair o u'
      ∧ t.mem = s.mem)
    ∧ ∀ slot k a b sat, o.kind = .mma slot k a b sat → k % 32 = 0 → s.operandClean a = true → s.operandClean b = true →
      let elem (r c : Nat) : Word := (slotOf u.working slot.toNat).elem (r * 128 + c)
      ∃ t, exec (.matrixOpRetire pair .pass) s = .next t ∧ t.mem = s.mem
        ∧ (t.unit pair).ops = u.ops.filter (fun x => x.id != o.id) ∧ (t.unit pair).visible = u.visible
        ∧ (∀ j, j ≠ slot.toNat → j ≠ slot.toNat + 1 → slotOf (t.unit pair).working j = slotOf u.working j)
        ∧ ∀ r < 64, ∀ c < 128, let new := (slotOf (t.unit pair).working slot.toNat).elem (r * 128 + c)
          (mmaKind a b = 2 → new = (List.range (k / 32)).foldl (fun acc q => loWord (ETy.s32.fit sat (acc.toInt +
            ((List.range 32).map fun j => a.ty.value (BitVec.ofNat 64 ((s.operandElem a false r (32 * q + j)).getD 0))
              * b.ty.value (BitVec.ofNat 64 ((s.operandElem b true (32 * q + j) c).getD 0))).sum))) (elem r c))
          ∧ (mmaKind a b = 1 → new = BitVec.ofNat 32 ((List.range (k / 32)).foldl (fun acc q => addBlock acc
            ((List.range 32).map fun j => mulF (u.floatElem a (s.operandElem a false r (32 * q + j)))
              (u.floatElem b (s.operandElem b true (32 * q + j) c)))) (elem r c).toNat)))
  ∧ (∀ pair m rest, (s.unit pair).redx = m :: rest → (s.core (2 * pair)).halted = false → s.switchUnit pair = s →
    let old := slotOf (s.unit pair).working m.slot.toNat
    let e := if old.evalid then old.e else m.exp
    ∃ t, exec (.mxredxArrival pair) s = .next t ∧ (t.unit pair).redx = rest
      ∧ (∀ o ∈ (t.unit m.pair).sent, o.id ≠ m.op)
      ∧ (s.redxTaken pair m = true → let new := slotOf (t.unit pair).working m.slot.toNat
        new.kind = 2 ∧ new.evalid = true ∧ new.e = e ∧ (old.sat = true → new.sat = true)
        ∧ ∀ n < 8192, new.elem n = BitVec.ofInt 32 (ETy.s32.clamp ((old.elem n).toInt
            + rneScale ((Assoc.find m.elems n).getD 0).toInt (m.exp.toInt - e.toInt))))
      ∧ (s.redxTaken pair m = false → (t.unit pair).working = (s.unit pair).working))
  ∧ ∀ die < 2,
    (∀ t rest, (s.cover die).input = t :: rest →
      ((s.cover die).full die = true → exec (.triangleArrival die) s = .next s)
      ∧ ((s.cover die).full die = false → exec (.triangleArrival die) s =
        .next (s.setCover die { s.cover die with input := rest, binned := (s.cover die).binned ++ [t] })))
    ∧ (∀ t l, (s.cover die).next = some t → t.fault = none → t.fabric = none →
      s.sampleSpans { core := t.core, pav := t.pav, ctx := t.ctx, block := s.fresh, uid := t.stream } t
        ((t.samples die).filter fun x => !t.resolved.contains x.1) = .ok l →
      (∀ y ∈ l, Assoc.find (s.cover die).store y.2.2.key = none → s.spanPoisoned y.2.2 = false) →
      let s₁ := l.foldl (fun (u : State) y => u.applySample die t y) s
      exec (.triangleCommit die) s = .next ((s₁.setCover die { s₁.cover die with
          binned := (s₁.cover die).binned.filter fun x => !(x.stream == t.stream && x.token == t.token),
          nextCommit := Assoc.set (s₁.cover die).nextCommit t.stream (t.token + 1) }).releaseStream t)
      ∧ ∀ (u : State) y, let old := u.storedSample die y.2.2
        let less := ∃ c, cmpF (f32 y.2.1) (f32 (loWord old).toNat) = some c ∧ c < 0
        (less → Assoc.find ((u.applySample die t y).cover die).store y.2.2.key = some
            { pav := t.pav, ctx := t.ctx, tile := y.1, value := joinWords (BitVec.ofNat 32 y.2.1) t.prim,
              va := BitVec.ofNat 64 y.2.2.va, page := y.2.2.page, ord := y.2.2.ord, pub := y.2.2.pub })
        ∧ (¬ less → u.applySample die t y = u))
    ∧ (∀ t u tile, (s.cover die).binned = [t] → (s.cover die).next = some t → t.fault = none → t.fabric = none →
      tile ∉ t.resolved → (∃ x ∈ touchedTiles t.viewRec t.verts, tileDie x.1 x.2 = die ∧ tileNumber t.viewRec x.1 x.2 = tile) →
      s.resolveSamples die t ((t.samples die).filter fun x => x.1 == tile) = .ok u →
      exec (.tileSpill die tile) s = .next ((u.setBinned die t { t with resolved := t.resolved ++ [tile], answers := [] }).spillSamples
        die fun x => x.tile == tile))
    ∧ ∀ tile, let out := (s.cover die).store.filter fun x => x.2.tile == tile
      (∀ t ∈ (s.cover die).binned, tile ∉ t.resolved →
        ∀ x ∈ touchedTiles t.viewRec t.verts, tileDie x.1 x.2 = die → tileNumber t.viewRec x.1 x.2 ≠ tile) →
      let at_ (x : Nat × Sample) : Nat := s.sampleKey x.1 x.2
      (∀ x ∈ out, s.paKind (at_ x) = .device ∧ x.2.ord ≠ 3) → out.Pairwise (fun x y => at_ x + 8 ≤ at_ y ∨ at_ y + 8 ≤ at_ x) →
      ∃ t, exec (.tileSpill die tile) s = .next t
        ∧ (t.cover die).store = (s.cover die).store.filter (fun x => x.2.tile != tile)
        ∧ (∀ x ∈ out, t.mem.readLE (at_ x) 8 = x.2.value.toNat)
        ∧ ∀ k, (∀ x ∈ out, k < at_ x ∨ at_ x + 8 ≤ k) → t.mem.read k = s.mem.read k

/-- A step carries out the next move. A wave that its quad may select executes the instruction that the four bytes at its `pc`
decode to, as `exec` gives it, then what follows its retirement: the bytes are those of its record's launch, or the new ones where
its own context has stored to them (R72). A word that decodes to none executes as illegal; an instruction that open log entries
hold does not execute, and a wave whose instruction needs an owed load is not selected; an owed `MX_CHECK` and a matching
breakpoint come first (R62, R67, R71, R81, R211, R335, R436). A walker executes the traversal word at its `pc` (R231, R253), and
an event of the device acts as `exec` gives it. With no move given, the device takes one of its choices (assumption 1). Every step
lets time pass. -/
def Obligations.StepRuns : Prop := ∀ (s : State) (rest : List Move), let s₁ := { s with agenda := rest }
  (∀ k w, s.tickDue = false → nextIs s (.wave k) rest → s.wave k = some w →
    let turn := s₁.pickWave (k / 8) = some k ∧ w.wait ≠ .passed
    let at_ : State := { s₁.setWave k w with cur := k, issued := (s.steps, k, w.pc) }
    (s₁.pickWave (k / 8) ≠ some k → step s = .next s₁.tick)
    ∧ ((∀ y ∈ s.waves, y.1 = k → s₁.selectable k y.2 = false) → s₁.pickWave (k / 8) ≠ some k)
    ∧ (s₁.selectable k w = true → (∀ y ∈ s.waves, y.1 / 8 = k / 8 → y.1 ≠ k → s₁.selectable y.1 y.2 = false) →
      s₁.pickWave (k / 8) = some k)
    ∧ (∀ x i, wordAt s₁ k w x → decodeGyrix x = .ok i → w.owes i = true → s₁.selectable k w = false)
    ∧ (s₁.pickWave (k / 8) = some k → w.wait = .passed → step s = .next (s₁.completeWait k id).tick)
    ∧ (∀ b, turn → w.mxCheck = some b →
      step s = .next (s₁.raiseTrap k w { cause := .mxCheck, lanes := 0, addr := zext64 b }).tick)
    ∧ (turn → w.mxCheck = none → s₁.breaks k w = true →
      step s = .next (s₁.raiseTrap k w { cause := .breakpoint, lanes := 0, addr := 0 }).tick)
    ∧ ∀ x, turn → w.mxCheck = none → s₁.breaks k w = false → wordAt s₁ k w x →
      (∀ e, decodeGyrix x = .error e → step s = ticked (retiring k w [] (exec (.illegalInstructionWord x) at_)))
      ∧ ∀ i, decodeGyrix x = .ok i →
        (s₁.logHolds k w i = true → step s = .next (s₁.setWave k { w with wait := .log }).tick)
        ∧ (s₁.logHolds k w i = false → w.struck i = true →
          step s = .next (s₁.raiseTrap k w { cause := .poison, lanes := 0, addr := 0 }).tick)
        ∧ (s₁.logHolds k w i = false → w.struck i = false →
          step s = ticked (retiring k w (if activeMask w = fullMask then destsOf w.wm i else []) (exec i at_))))
  ∧ (∀ k w, s.tickDue = false → nextIs s (.walker k) rest → s.walker k = some w →
    let turn := s₁.pickWalker (k / 64) (s₁.core (k / 64)) = some k
    (¬ turn → step s = .next s₁.tick)
    ∧ (s₁.walkerReady k w = true →
      (∀ y ∈ (s.core (k / 64)).walkers, k / 64 * 64 + y.1 ≠ k → s₁.walkerReady (k / 64 * 64 + y.1) y.2 = false) → turn)
    ∧ (turn → w.start ≠ .running → step s = .next (s₁.beginQuery k w).tick)
    ∧ ∀ bs, turn → w.start = .running → w.pc.toNat < globalEnd → s₁.walkerRead k w .fetch w.pc 4 = .ok bs →
      let x := BitVec.ofNat 32 (leNat bs)
      let s₂ := { s₁ with curWalker := k }
      (∀ i, decodeGts x = .ok i → step s = ticked (stepping k (exec i s₂)))
      ∧ ∀ e, decodeGts x = .error e → step s = ticked (stepping k (exec (.gtsIllegalWord x) s₂)))
  ∧ (∀ e, s.tickDue = false → nextIs s (.event e) rest → isEvent e = true → step s = ticked (exec e s₁))
  ∧ (s.tickDue = true → step s = ticked (exec .belvedereTick s))
  ∧ (s.tickDue = false → s.agenda = [] → (s.choices = [] → step s = .next s.tick)
    ∧ (s.choices ≠ [] → ∃ c ∈ s.choices, step s = ticked (s.runChoice c)))
  ∧ ∀ w l, let word (t : State) : Word := BitVec.ofNat 32 (leNat (t.homeBytes l))
    (s.launchMemory w = none → s.codeWord w l = word s)
    ∧ ∀ m, s.launchMemory w = some m → (s.codeWord w l = word s ∨ s.codeWord w l = word { s with mem := m })
      ∧ ((∀ y ∈ l, s.ownStored w y.key = false) → s.codeWord w l = word { s with mem := m })

/-- Words written out from the encodings of R73, R75, R79, R253 and R254 decode to the instructions they stand for; 0xFF, an
unassigned opcode, an odd pair field and a set bit of a zero field decode to none. -/
def Obligations.WordsDecode : Prop :=
  decodeGyrix (0x10#8 ++ 3#8 ++ 4#8 ++ 5#8) = .ok (.add 3 4 5)
  ∧ decodeGyrix (0x23#8 ++ 7#8 ++ 8#8 ++ 0xFF#8) = .ok (.addi 7 8 (-1))
  ∧ decodeGyrix (0x01#8 ++ 0#8 ++ 0x12#8 ++ 0x34#8) = .ok (.model 0x1234)
  ∧ decodeGyrix (0x87#8 ++ 0xFFFFFE#24) = .ok (.ifLanes (-2))
  ∧ decodeGyrix (0xA0#8 ++ 9#8 ++ 10#8 ++ 0x80#8) = .ok (.ld 9 5 (-128))
  ∧ decodeGyrix (0xB2#8 ++ 0#8 ++ 0#8 ++ (1#1 ++ 1#1 ++ 4#3 ++ 3#3)) = .ok (.fence 3 4 true true)
  ∧ decodeGyrix (0xC0#8 ++ 0#8 ++ 6#8 ++ (0#3 ++ 2#2 ++ 7#3)) = .ok (.cpyset 3 7 2)
  ∧ decodeGyrix (0xD0#8 ++ (0#1 ++ 3#4 ++ 5#3) ++ 2#8 ++ 4#8) = .ok (.mma 5 3 1 2)
  ∧ decodeGyrix (0xF8#8 ++ 0#8 ++ 0x00#8 ++ 0x2A#8) = .ok (.trap 42)
  ∧ decodeGts (0x05#6 ++ 1#4 ++ 2#4 ++ 0#4 ++ 0#14) = .ok (.boxt 1 2)
  ∧ decodeGts (0x1E#6 ++ 0#4 ++ 0#4 ++ 0#4 ++ 0x3FFF#14) = .ok (.jump (-1))
  ∧ decodeGts (0x10#6 ++ 6#4 ++ 0#4 ++ 0#4 ++ (0#9 ++ 1#1 ++ 4#4)) = .ok (.ldq 6 1 4)
  ∧ decodeGyrix 0xFFFFFFFF = .error .unassignedOpcode
  ∧ decodeGyrix (0x0C#8 ++ 0#24) = .error .unassignedOpcode
  ∧ decodeGyrix (0x28#8 ++ 3#8 ++ 4#8 ++ 5#8) = .error .fieldKind
  ∧ decodeGyrix (0x00#8 ++ 0#8 ++ 0#8 ++ 1#8) = .error .fieldKind
  ∧ decodeGts 0 = .error .unassignedOpcode

/-- Decoding undoes encoding: the word of a well-formed instruction decodes to it, by the decoder of its set, whatever its
operands. -/
def Obligations.DecodeEncode : Prop := ∀ (i : Instr) (x : Word), i.WellFormed → encode i = some x → decoderOf i x = .ok i

/-- Encoding undoes decoding: an instruction that a word decodes to is well-formed, and the word is its only encoding, so every
bit of a word is read. -/
def Obligations.EncodeDecode : Prop := ∀ (i : Instr) (x : Word),
  (decodeGyrix x = .ok i → i.WellFormed ∧ encode i = some x ∧ isTraversal i = false)
  ∧ (decodeGts x = .ok i → i.WellFormed ∧ encode i = some x ∧ isTraversal i = true)

/-- Every step keeps memory in its canonical form, from every state: addresses strictly rising, and no byte listed that an
unlisted address reads as. Equal memories stay equal data (the model's own convention, assumption 2). -/
def Obligations.MemoryCanonical : Prop := ∀ s t : State, s.canonical = true → step s = .next t → t.canonical = true

/-- After reset nothing runs: no wave, block, grid or walker, no queue and no context is enabled, and no debugger is attached.
READY, DRVFEAT, the rings and the counters read 0, DEVFEAT is 0x3F and SCRUBPERIOD 24, every pair hosts itself, no error is
recorded, and memory is canonical (R60, R61, R446, R447, R451). That every address of memory reads 0 is the model's choice
(assumption 2). -/
def Obligations.ResetState : Prop := let s := State.reset
  s.canonical = true ∧ s.pf.ready = 0 ∧ s.pf.readyErr = 0 ∧ s.pf.devfeat = 0x3F ∧ s.pf.drvfeat = 0 ∧ s.pf.locked = false
  ∧ s.pf.featErr = false ∧ s.pf.scrubPeriod = 24 ∧ s.pf.mapout = 0 ∧ s.pf.bvctl = 0 ∧ s.pf.bvring = 0 ∧ s.pf.impcount = 0
  ∧ s.pf.ingValid = false ∧ s.pf.ingCount = 0 ∧ s.pf.pfevring = 0 ∧ s.pf.ualen = false ∧ s.pf.ualup = false ∧ s.pf.loss = false
  ∧ s.pf.power = 0 ∧ s.pf.drallow = 0 ∧ s.clock = 0 ∧ s.time = 0 ∧ s.errstat = #v[0, 0]
  ∧ (∀ k, s.wave k = none ∧ s.walker k = none ∧ s.block k = none ∧ Assoc.find s.grids k = none)
  ∧ (∀ p q, s.queueEnabled p q = false ∧ (s.queue p q).head = 0 ∧ (s.queue p q).tail = 0)
  ∧ (∀ p c, s.ctxValid p c = false ∧ s.ctx p c = none)
  ∧ (∀ p, (s.pav p).fbring = 0 ∧ (s.pav p).fltring = 0 ∧ (s.pav p).evring = 0 ∧ (s.pav p).ctxtab = 0 ∧ (s.pav p).busy = false
    ∧ (s.pav p).saved = false ∧ s.vfPav p = none)
  ∧ (∀ c, (s.core c).dbg.attached = false ∧ (s.core c).halted = false ∧ (s.core c).dbg.traceCtl = 0)
  ∧ (∀ p, s.hostOf p = some p ∧ (s.unit p).owner = none) ∧ (∀ d n, s.errorAt d n = 0) ∧ (∀ a, s.mem.read a = 0)

end Statements
end

