-- ==== Sys2Proof/Laws/Assoc.lean ====
section
/-! SUPPORT. Laws of sparse data and of memory: read after write, writes leave other places alone, and every write keeps
the canonical form. -/

namespace Sys2Proof.Machine

theorem Assoc.find_set {α : Type} (m : Assoc α) (k k' : Nat) (v : α) :
    (m.set k v).find k' = if k = k' then some v else m.find k' := by
  induction m with
  | nil => rfl
  | cons h t ih =>
    obtain ⟨k0, v0⟩ := h
    simp only [Assoc.set]
    split
    · simp only [Assoc.find, ih]
      split <;> split <;> simp_all
    · split
      · subst_vars; simp only [Assoc.find]; split <;> rfl
      · simp only [Assoc.find]

theorem Assoc.find_set_same {α : Type} (m : Assoc α) (k : Nat) (v : α) : (m.set k v).find k = some v := by
  simp [Assoc.find_set]

theorem Assoc.find_set_other {α : Type} (m : Assoc α) {k k' : Nat} (v : α) (h : k ≠ k') :
    (m.set k v).find k' = m.find k' := by
  simp [Assoc.find_set, h]

theorem Assoc.find_erase {α : Type} (m : Assoc α) (k k' : Nat) :
    (m.erase k).find k' = if k = k' then none else m.find k' := by
  induction m with
  | nil => simp [Assoc.erase, Assoc.find]
  | cons h t ih =>
    obtain ⟨k0, v0⟩ := h
    simp only [Assoc.erase]
    split
    · rw [ih]; subst_vars; simp only [Assoc.find]; split <;> rfl
    · simp only [Assoc.find, ih]
      split <;> split <;> simp_all

theorem Assoc.set_set {α : Type} (m : Assoc α) (k : Nat) (v w : α) : (m.set k v).set k w = m.set k w := by
  induction m with
  | nil => simp [Assoc.set]
  | cons h t ih =>
    obtain ⟨k0, v0⟩ := h
    simp only [Assoc.set]
    split
    · rename_i h; simp [Assoc.set, h, ih]
    · split
      · subst_vars; simp [Assoc.set]
      · simp [Assoc.set]

theorem Memory.read_write (m : Memory) (a a' : Nat) (b : Byte) :
    (m.write a b).read a' = if a = a' then b else m.read a' := by
  unfold Memory.write Memory.read
  split
  · rw [Assoc.find_erase]; split <;> simp_all
  · rw [Assoc.find_set]; split <;> rfl

theorem Memory.read_write_same (m : Memory) (a : Nat) (b : Byte) : (m.write a b).read a = b := by
  simp [Memory.read_write]

theorem Memory.read_write_other (m : Memory) {a a' : Nat} (b : Byte) (h : a ≠ a') : (m.write a b).read a' = m.read a' := by
  simp [Memory.read_write, h]

theorem Memory.read_writeCells_other (cs : List Host.Cell) (m : Memory) (a : Nat) (h : ∀ c ∈ cs, c.1 ≠ a) :
    (m.writeCells cs).read a = m.read a := by
  induction cs generalizing m with
  | nil => rfl
  | cons c t ih =>
    rw [Memory.writeCells, ih _ fun c' h' => h c' (List.mem_cons_of_mem _ h')]
    exact Memory.read_write_other m c.2 (h c List.mem_cons_self)

/-- Every listed key is above `k`. -/
def Assoc.above {α : Type} (k : Nat) (m : Assoc α) : Prop := ∀ c ∈ m, k < c.1

theorem Assoc.rising_cons {α : Type} (c : Nat × α) (m : Assoc α) :
    Assoc.rising (c :: m) = true ↔ Assoc.above c.1 m ∧ Assoc.rising m = true := by
  induction m generalizing c with
  | nil => simp [Assoc.rising, Assoc.above]
  | cons d t ih =>
    obtain ⟨k, v⟩ := c
    obtain ⟨k', v'⟩ := d
    simp only [Assoc.rising, Bool.and_eq_true, decide_eq_true_eq]
    rw [ih (k', v')]
    simp only [Assoc.above, List.mem_cons, forall_eq_or_imp]
    constructor
    · rintro ⟨h1, h2, h3⟩
      exact ⟨⟨h1, fun c hc => Nat.lt_trans h1 (h2 c hc)⟩, h2, h3⟩
    · rintro ⟨⟨h1, -⟩, h2, h3⟩
      exact ⟨h1, h2, h3⟩

theorem Assoc.mem_set {α : Type} (m : Assoc α) (k : Nat) (v : α) (c : Nat × α) (h : c ∈ m.set k v) :
    c = (k, v) ∨ c ∈ m := by
  induction m with
  | nil => simp [Assoc.set] at h; exact .inl h
  | cons d t ih =>
    simp only [Assoc.set] at h
    split at h
    · rcases List.mem_cons.1 h with h | h
      · exact .inr (h ▸ List.mem_cons_self)
      · exact (ih h).imp id (List.mem_cons_of_mem _)
    · split at h
      · rcases List.mem_cons.1 h with h | h
        · exact .inl h
        · exact .inr (List.mem_cons_of_mem _ h)
      · rcases List.mem_cons.1 h with h | h
        · exact .inl h
        · exact .inr h

theorem Assoc.mem_erase {α : Type} (m : Assoc α) (k : Nat) (c : Nat × α) (h : c ∈ m.erase k) : c ∈ m := by
  induction m with
  | nil => simp [Assoc.erase] at h
  | cons d t ih =>
    simp only [Assoc.erase] at h
    split at h
    · exact List.mem_cons_of_mem _ (ih h)
    · rcases List.mem_cons.1 h with h | h
      · exact h ▸ List.mem_cons_self
      · exact List.mem_cons_of_mem _ (ih h)

theorem Assoc.rising_set {α : Type} (m : Assoc α) (k : Nat) (v : α) (h : m.rising = true) :
    (m.set k v).rising = true := by
  induction m with
  | nil => rfl
  | cons d t ih =>
    have hd := (Assoc.rising_cons d t).1 h
    simp only [Assoc.set]
    split
    · rw [Assoc.rising_cons]
      refine ⟨fun c hc => ?_, ih hd.2⟩
      rcases Assoc.mem_set t k v c hc with rfl | hc
      · assumption
      · exact hd.1 c hc
    · split
      · rw [Assoc.rising_cons]
        exact ⟨by subst_vars; exact hd.1, hd.2⟩
      · rw [Assoc.rising_cons]
        refine ⟨fun c hc => ?_, h⟩
        have : k < d.1 := by omega
        rcases List.mem_cons.1 hc with rfl | hc
        · exact this
        · exact Nat.lt_trans this (hd.1 c hc)

theorem Assoc.rising_erase {α : Type} (m : Assoc α) (k : Nat) (h : m.rising = true) : (m.erase k).rising = true := by
  induction m with
  | nil => rfl
  | cons d t ih =>
    have hd := (Assoc.rising_cons d t).1 h
    simp only [Assoc.erase]
    split
    · exact ih hd.2
    · rw [Assoc.rising_cons]
      exact ⟨fun c hc => hd.1 c (Assoc.mem_erase t k c hc), ih hd.2⟩

theorem Memory.wf_iff (m : Memory) : m.wf = true ↔ Assoc.rising m = true ∧ ∀ c ∈ m, c.2 ≠ Memory.unlisted := by
  simp [Memory.wf]

theorem Memory.wf_write (m : Memory) (a : Nat) (b : Byte) (h : m.wf = true) : (m.write a b).wf = true := by
  rw [Memory.wf_iff] at h ⊢
  unfold Memory.write
  split
  · exact ⟨Assoc.rising_erase m a h.1, fun c hc => h.2 c (Assoc.mem_erase m a c hc)⟩
  · refine ⟨Assoc.rising_set m a b h.1, fun c hc => ?_⟩
    rcases Assoc.mem_set m a b c hc with rfl | hc
    · assumption
    · exact h.2 c hc

theorem Memory.wf_writeCells (cs : List Host.Cell) (m : Memory) (h : m.wf = true) : (m.writeCells cs).wf = true := by
  induction cs generalizing m with
  | nil => exact h
  | cons c t ih => exact ih _ (Memory.wf_write m c.1 c.2 h)

theorem Memory.wf_writeLE (m : Memory) (a n x : Nat) (h : m.wf = true) : (m.writeLE a n x).wf = true :=
  Memory.wf_writeCells _ _ h

end Sys2Proof.Machine
end

