-- ==== Sys2Proof/Laws/Decode.lean ====
section
/-! SUPPORT. The laws of instruction fields: what each field of a word built from its parts reads, what the kinds of R75
accept, and that a word is its fields. -/

namespace Sys2Proof

theorem toNat_formA (op d a b : BitVec 8) :
    (formA op d a b).toNat = op.toNat * 0x1000000 + d.toNat * 0x10000 + a.toNat * 0x100 + b.toNat := by
  unfold formA; rw [BitVec.toNat_ofNat, Nat.mod_eq_of_lt]; omega

theorem toNat_formC (op d : BitVec 8) (imm : BitVec 16) :
    (formC op d imm).toNat = op.toNat * 0x1000000 + d.toNat * 0x10000 + imm.toNat := by
  unfold formC; rw [BitVec.toNat_ofNat, Nat.mod_eq_of_lt]; omega

theorem toNat_formD (op : BitVec 8) (imm : BitVec 24) : (formD op imm).toNat = op.toNat * 0x1000000 + imm.toNat := by
  unfold formD; rw [BitVec.toNat_ofNat, Nat.mod_eq_of_lt]; omega

theorem toNat_gtsForm (op : BitVec 6) (d a b : BitVec 4) (imm : BitVec 14) : (gtsForm op d a b imm).toNat =
    op.toNat * 0x4000000 + d.toNat * 0x400000 + a.toNat * 0x40000 + b.toNat * 0x4000 + imm.toNat := by
  unfold gtsForm; rw [BitVec.toNat_ofNat, Nat.mod_eq_of_lt]; omega

/-- A field by division. -/
theorem toNat_field (w : Word) (lo n : Nat) : (w.extractLsb' lo n).toNat = w.toNat / 2 ^ lo % 2 ^ n := by
  rw [BitVec.extractLsb'_toNat, Nat.shiftRight_eq_div_pow]

@[simp] theorem fOp_formA (op d a b : BitVec 8) : fOp (formA op d a b) = op := by
  apply BitVec.eq_of_toNat_eq; rw [fOp, toNat_field, toNat_formA]; omega
@[simp] theorem fD_formA (op d a b : BitVec 8) : fD (formA op d a b) = d := by
  apply BitVec.eq_of_toNat_eq; rw [fD, toNat_field, toNat_formA]; omega
@[simp] theorem fA_formA (op d a b : BitVec 8) : fA (formA op d a b) = a := by
  apply BitVec.eq_of_toNat_eq; rw [fA, toNat_field, toNat_formA]; omega
@[simp] theorem fB_formA (op d a b : BitVec 8) : fB (formA op d a b) = b := by
  apply BitVec.eq_of_toNat_eq; rw [fB, toNat_field, toNat_formA]; omega
@[simp] theorem fOp_formC (op d : BitVec 8) (i : BitVec 16) : fOp (formC op d i) = op := by
  apply BitVec.eq_of_toNat_eq; rw [fOp, toNat_field, toNat_formC]; omega
@[simp] theorem fD_formC (op d : BitVec 8) (i : BitVec 16) : fD (formC op d i) = d := by
  apply BitVec.eq_of_toNat_eq; rw [fD, toNat_field, toNat_formC]; omega
@[simp] theorem fImm16_formC (op d : BitVec 8) (i : BitVec 16) : fImm16 (formC op d i) = i := by
  apply BitVec.eq_of_toNat_eq; rw [fImm16, toNat_field, toNat_formC]; omega
@[simp] theorem fA_formC (op d : BitVec 8) (hi lo : BitVec 8) : fA (formC op d (hi ++ lo)) = hi := by
  apply BitVec.eq_of_toNat_eq; rw [fA, toNat_field, toNat_formC, BitVec.toNat_append, Nat.shiftLeft_eq,
    ← Nat.shiftLeft_eq, ← Nat.shiftLeft_add_eq_or_of_lt lo.isLt, Nat.shiftLeft_eq]; omega
@[simp] theorem fB_formC (op d : BitVec 8) (hi lo : BitVec 8) : fB (formC op d (hi ++ lo)) = lo := by
  apply BitVec.eq_of_toNat_eq; rw [fB, toNat_field, toNat_formC, BitVec.toNat_append, 
    ← Nat.shiftLeft_add_eq_or_of_lt lo.isLt, Nat.shiftLeft_eq]; omega
@[simp] theorem fOp_formD (op : BitVec 8) (i : BitVec 24) : fOp (formD op i) = op := by
  apply BitVec.eq_of_toNat_eq; rw [fOp, toNat_field, toNat_formD]; omega
@[simp] theorem fImm24_formD (op : BitVec 8) (i : BitVec 24) : fImm24 (formD op i) = i := by
  apply BitVec.eq_of_toNat_eq; rw [fImm24, toNat_field, toNat_formD]; omega

@[simp] theorem gOp_gtsForm (op : BitVec 6) (d a b : BitVec 4) (i : BitVec 14) : gOp (gtsForm op d a b i) = op := by
  apply BitVec.eq_of_toNat_eq; rw [gOp, toNat_field, toNat_gtsForm]; omega
@[simp] theorem gD_gtsForm (op : BitVec 6) (d a b : BitVec 4) (i : BitVec 14) : gD (gtsForm op d a b i) = d := by
  apply BitVec.eq_of_toNat_eq; rw [gD, toNat_field, toNat_gtsForm]; omega
@[simp] theorem gA_gtsForm (op : BitVec 6) (d a b : BitVec 4) (i : BitVec 14) : gA (gtsForm op d a b i) = a := by
  apply BitVec.eq_of_toNat_eq; rw [gA, toNat_field, toNat_gtsForm]; omega
@[simp] theorem gB_gtsForm (op : BitVec 6) (d a b : BitVec 4) (i : BitVec 14) : gB (gtsForm op d a b i) = b := by
  apply BitVec.eq_of_toNat_eq; rw [gB, toNat_field, toNat_gtsForm]; omega
@[simp] theorem gImm_gtsForm (op : BitVec 6) (d a b : BitVec 4) (i : BitVec 14) : gImm (gtsForm op d a b i) = i := by
  apply BitVec.eq_of_toNat_eq; rw [gImm, toNat_field, toNat_gtsForm]; omega

@[simp] theorem asPair_pairField (k : Pair) : asPair (pairField k) = some k := by revert k; decide
@[simp] theorem asPred_predField (p : BitVec 3) : asPred (predField p) = some p := by revert p; decide
@[simp] theorem asImm_immField1 (x : BitVec 1) : asImm 1 (immField x) = some x := by revert x; decide
@[simp] theorem asImm_immField2 (x : BitVec 2) : asImm 2 (immField x) = some x := by revert x; decide
@[simp] theorem asImm_immField4 (x : BitVec 4) : asImm 4 (immField x) = some x := by revert x; decide
@[simp] theorem asImm_immField5 (x : BitVec 5) : asImm 5 (immField x) = some x := by revert x; decide
@[simp] theorem asImm_immField6 (x : BitVec 6) : asImm 6 (immField x) = some x := by revert x; decide
@[simp] theorem asImm_immField7 (x : BitVec 7) : asImm 7 (immField x) = some x := by revert x; decide

/-- The lower part of two bit strings side by side. -/
@[simp] theorem extract_append_low {m n : Nat} (hi : BitVec m) (lo : BitVec n) : (hi ++ lo).extractLsb' 0 n = lo := by
  apply BitVec.eq_of_toNat_eq
  rw [BitVec.extractLsb'_toNat, BitVec.toNat_append, ← Nat.shiftLeft_add_eq_or_of_lt lo.isLt, Nat.shiftRight_zero,
    Nat.shiftLeft_eq, Nat.mul_comm, Nat.mul_add_mod, Nat.mod_eq_of_lt lo.isLt]

/-- The upper part of two bit strings side by side. -/
@[simp] theorem extract_append_high {m n : Nat} (hi : BitVec m) (lo : BitVec n) : (hi ++ lo).extractLsb' n m = hi := by
  apply BitVec.eq_of_toNat_eq
  rw [BitVec.extractLsb'_toNat, BitVec.toNat_append, ← Nat.shiftLeft_add_eq_or_of_lt lo.isLt, Nat.shiftRight_eq_div_pow,
    Nat.shiftLeft_eq, Nat.mul_comm, Nat.mul_add_div (Nat.two_pow_pos n), Nat.div_eq_of_lt lo.isLt, Nat.add_zero,
    Nat.mod_eq_of_lt hi.isLt]

/-- The bit that marks an immediate of a traversal word (R270). -/
@[simp] theorem immBit_set (k : BitVec 13) : (1#1 ++ k)[13] = true := by
  rw [BitVec.getElem_append]; rfl

/-- The zero bits of a short immediate of a traversal word, and the immediate. -/
@[simp] theorem gtsImm1_high (m : BitVec 1) : (0#13 ++ m).extractLsb' 1 13 = 0#13 := by revert m; decide
@[simp] theorem gtsImm3_high (c : BitVec 3) : (0#11 ++ c).extractLsb' 3 11 = 0#11 := by revert c; decide
@[simp] theorem queryImm_high (x : BitVec 1) (k : BitVec 4) : (0#9 ++ x ++ k).extractLsb' 5 9 = 0#9 := by
  revert x k; decide
@[simp] theorem queryImm_width (x : BitVec 1) (k : BitVec 4) : (0#9 ++ x ++ k).extractLsb' 4 1 = x := by
  revert x k; decide

/-- The parts of the fields that hold two operands (R75, R79, R266, R269), at their widths. -/
@[simp] theorem mmaField_slot (k : BitVec 4) (s : BitVec 3) : (k ++ s).extractLsb' 0 3 = s := extract_append_low k s
@[simp] theorem mmaField_k (k : BitVec 4) (s : BitVec 3) : (k ++ s).extractLsb' 3 4 = k := extract_append_high k s
@[simp] theorem cpysetField_reg (c : BitVec 2) (r : BitVec 3) : (c ++ r).extractLsb' 0 3 = r := extract_append_low c r
@[simp] theorem cpysetField_chan (c : BitVec 2) (r : BitVec 3) : (c ++ r).extractLsb' 3 2 = c := extract_append_high c r
@[simp] theorem distImm_dims (m : BitVec 2) (n : BitVec 12) : (m ++ n).extractLsb' 0 12 = n := extract_append_low m n
@[simp] theorem distImm_metric (m : BitVec 2) (n : BitVec 12) : (m ++ n).extractLsb' 12 2 = m := extract_append_high m n
@[simp] theorem gtsImm1_low (m : BitVec 1) : (0#13 ++ m).extractLsb' 0 1 = m := extract_append_low _ m
@[simp] theorem gtsImm3_low (c : BitVec 3) : (0#11 ++ c).extractLsb' 0 3 = c := extract_append_low _ c
@[simp] theorem gtsImm13_low (k : BitVec 13) : (1#1 ++ k).extractLsb' 0 13 = k := extract_append_low _ k
@[simp] theorem queryImm_index (x : BitVec 1) (k : BitVec 4) : (0#9 ++ x ++ k).extractLsb' 0 4 = k := extract_append_low _ k
@[simp] theorem fenceImm_order (o s : BitVec 3) (e u : BitVec 1) : (u ++ e ++ s ++ o).extractLsb' 0 3 = o :=
  extract_append_low _ o

/-- The four fields of a FENCE immediate (R79). -/
@[simp] theorem fenceImm_scope (o s : BitVec 3) (e u : BitVec 1) : (u ++ e ++ s ++ o).extractLsb' 3 3 = s := by
  revert o s e u; decide
@[simp] theorem fenceImm_engines (o s : BitVec 3) (e : Bool) (u : BitVec 1) : (u ++ bit e ++ s ++ o)[6] = e := by
  revert o s e u; decide
@[simp] theorem fenceImm_unordered (o s : BitVec 3) (e : BitVec 1) (u : Bool) : (bit u ++ e ++ s ++ o)[7] = u := by
  revert o s e u; decide

/-- A refusal of non-zero bits passes zeros. -/
@[simp] theorem need_true (c : Prop) [Decidable c] (h : c) (r : Except DecodeError Instr) : need c r = r := if_pos h

@[simp] theorem field_some {α : Type} (v : α) (k : α → Except DecodeError Instr) : field (some v) k = k v := rfl

/-- A well-formed instruction passes the limits. -/
theorem checked_ok (i : Instr) (h : i.WellFormed) : checked i = .ok i := if_pos h

end Sys2Proof
end

