-- ==== Sys2Proof/Laws/Regs.lean ====
section
/-! SUPPORT. The laws of the register file: what each lane reads after a write, whatever the storage shapes (R45 to R52), and
how many rows a write adds (R54). -/

namespace Sys2Proof.Machine

theorem rd_wr (R : Regs) (r r' : Reg) (v : VReg) : rd (wr R r v) r' = if r = r' then v else rd R r' := by
  simp only [rd, wr, Vector.getElem_set]
  by_cases h : r = r'
  · subst h; simp
  · rw [if_neg h, if_neg]; intro hn; exact h (BitVec.eq_of_toNat_eq hn)

@[simp] theorem rd_wr_same (R : Regs) (r : Reg) (v : VReg) : rd (wr R r v) r = v := by simp [rd_wr]

theorem rd_wr_other (R : Regs) {r r' : Reg} (v : VReg) (h : r ≠ r') : rd (wr R r v) r' = rd R r' := by simp [rd_wr, h]

/-! ### Even and odd -/

theorem evenOf_ne_oddOf (a b : Reg) : evenOf a ≠ oddOf b := by
  intro h
  have := congrArg (fun x => x.getLsbD 0) h
  simp [evenOf, oddOf] at this

theorem evenOf_evenOf (r : Reg) : evenOf (evenOf r) = evenOf r := by revert r; decide
theorem evenOf_oddOf (r : Reg) : evenOf (oddOf r) = evenOf r := by revert r; decide
theorem oddOf_evenOf (r : Reg) : oddOf (evenOf r) = oddOf r := by revert r; decide
theorem oddOf_oddOf (r : Reg) : oddOf (oddOf r) = oddOf r := by revert r; decide
theorem odd_evenOf (r : Reg) : (evenOf r).getLsbD 0 = false := by revert r; decide
theorem odd_oddOf (r : Reg) : (oddOf r).getLsbD 0 = true := by revert r; decide
theorem eq_evenOf (r : Reg) (h : r.getLsbD 0 = false) : evenOf r = r := by revert r; decide
theorem eq_oddOf (r : Reg) (h : r.getLsbD 0 = true) : oddOf r = r := by revert r; decide
theorem evenOf_pairReg (k : Pair) : evenOf (pairReg k) = pairReg k := by revert k; decide
theorem regPair_pairReg (k : Pair) : regPair (pairReg k) = k := by revert k; decide
theorem pairReg_regPair (r : Reg) : pairReg (regPair r) = evenOf r := by revert r; decide

/-! ### Rows -/

theorem rowLane_rowOf (f : Nat → Word) (i : Nat) (h : i < 32) : rowLane (rowOf f) i = f i := by
  iterate 32
    rcases i with _ | i
    · rfl
  omega

theorem lane_g (R : Regs) (r : Reg) (row : Vector Word 32) (i : Nat) (h : rd R r = .g row) : lane R r i = rowLane row i := by
  simp [lane, h]

theorem lane_u (R : Regs) (r : Reg) (x : Word) (i : Nat) (h : rd R r = .u x) : lane R r i = x := by simp [lane, h]

/-! ### One register replaced, its pair separated first (R52) -/

theorem even_or_odd (r : Reg) : r = evenOf r ∨ r = oddOf r := by revert r; decide

/-- Two different registers of one pair are partners. -/
theorem same_pair (r d : Reg) (h : evenOf r = evenOf d) (hn : r ≠ d) :
    (r = evenOf d ∧ d = oddOf d ∧ d.getLsbD 0 = true) ∨ (r = oddOf d ∧ d = evenOf d ∧ d.getLsbD 0 = false) := by
  have ho : oddOf r = oddOf d := by rw [← oddOf_evenOf r, h, oddOf_evenOf]
  rcases even_or_odd r with hr | hr <;> rcases even_or_odd d with hd | hd
  · exact absurd (hr.trans (h.trans hd.symm)) hn
  · exact .inl ⟨hr.trans h, hd, by rw [hd]; exact odd_oddOf d⟩
  · exact .inr ⟨hr.trans ho, hd, by rw [hd]; exact odd_evenOf d⟩
  · exact absurd (hr.trans (ho.trans hd.symm)) hn

theorem oddOf_eq_of_evenOf_eq {r d : Reg} (h : evenOf r = evenOf d) : oddOf r = oddOf d := by
  rw [← oddOf_evenOf r, h, oddOf_evenOf]

/-- A lane depends on the two registers of its pair alone. -/
theorem lane_congr (R R' : Regs) (r : Reg) (i : Nat) (h : rd R' r = rd R r) (he : rd R' (evenOf r) = rd R (evenOf r))
    (ho : rd R' (oddOf r) = rd R (oddOf r)) : lane R' r i = lane R r i := by
  unfold lane; rw [h, he, ho]

theorem loWord_joinWords (lo hi : Word) : loWord (joinWords lo hi) = lo := extract_append_low hi lo
theorem hiWord_joinWords (lo hi : Word) : hiWord (joinWords lo hi) = hi := extract_append_high hi lo

theorem loWord_setWidth (x : DWord) : loWord x = x.setWidth 32 := by
  apply BitVec.eq_of_toNat_eq; simp [loWord, BitVec.extractLsb'_toNat]

theorem loWord_add (x y : DWord) : loWord (x + y) = loWord x + loWord y := by
  rw [loWord_setWidth, BitVec.setWidth_add _ _ (by decide), ← loWord_setWidth, ← loWord_setWidth]

theorem loWord_mul (x y : DWord) : loWord (x * y) = loWord x * loWord y := by
  rw [loWord_setWidth, BitVec.setWidth_mul _ _ (by decide), ← loWord_setWidth, ← loWord_setWidth]

theorem loWord_sext64 (x : Word) : loWord (sext64 x) = x := by
  rw [loWord_setWidth, sext64]
  ext i hi
  rw [BitVec.getElem_setWidth, BitVec.getLsbD_signExtend, if_pos hi, BitVec.getLsbD_eq_getElem hi]
  simp; omega

theorem loWord_zext64 (x : Word) : loWord (zext64 x) = x := by
  rw [loWord_setWidth, zext64, BitVec.setWidth_setWidth_of_le _ (by decide), BitVec.setWidth_eq]

theorem loWord_ofNat (n : Nat) : loWord (BitVec.ofNat 64 n) = BitVec.ofNat 32 n := by
  rw [loWord_setWidth, BitVec.setWidth_ofNat_of_le (by decide)]

/-- The low half of an affine pair is an affine row of its own (R52). -/
theorem loWord_affine64 (slot : DWord) (stride : Word) (i : Nat) :
    loWord (affine64 slot stride i) = loWord slot + BitVec.ofNat 32 i * stride := by
  rw [affine64, loWord_add, loWord_mul, loWord_sext64, loWord_ofNat]

/-! ### What a lane reads, by what its register holds (R45, R47) -/

/-- Register `r` is half of an affine pair. -/
def inPair (R : Regs) (r : Reg) : Prop := ∃ slot stride, rd R (evenOf r) = .a slot ∧ rd R (oddOf r) = .p stride

theorem lane_a_pair (R : Regs) (r : Reg) (slot : DWord) (stride : Word) (i : Nat) (he : r.getLsbD 0 = false)
    (hs : rd R r = .a slot) (ht : rd R (oddOf r) = .p stride) : lane R r i = loWord slot + BitVec.ofNat 32 i * stride := by
  simp only [lane, hs, he, ht, Bool.false_eq_true, if_false, loWord_affine64]

theorem lane_a_alone (R : Regs) (r : Reg) (slot : DWord) (i : Nat) (hs : rd R r = .a slot)
    (hn : r.getLsbD 0 = true ∨ ∀ x, rd R (oddOf r) ≠ .p x) : lane R r i = loWord slot + BitVec.ofNat 32 i * hiWord slot := by
  simp only [lane, hs]
  split
  · rename_i x hx
    rcases hn with h | h
    · rw [if_pos h] at hx; exact nomatch hx
    · split at hx
      · exact nomatch hx
      · exact absurd hx (h x)
  · rfl

theorem separate_alone (R : Regs) (d : Reg) (h : ¬ inPair R d) : separate R d = R := by
  unfold separate
  split
  · rename_i slot stride hs ht; exact absurd ⟨slot, stride, hs, ht⟩ h
  · rfl

theorem separate_odd (R : Regs) (d : Reg) (slot : DWord) (stride : Word) (hs : rd R (evenOf d) = .a slot)
    (ht : rd R (oddOf d) = .p stride) (ho : d.getLsbD 0 = true) :
    separate R d = wr R (evenOf d) (.a (joinWords (loWord slot) stride)) := by
  unfold separate; rw [hs, ht]; simp only [ho, if_true]

theorem separate_even (R : Regs) (d : Reg) (slot : DWord) (stride : Word) (hs : rd R (evenOf d) = .a slot)
    (ht : rd R (oddOf d) = .p stride) (ho : d.getLsbD 0 = false) :
    separate R d = wr R (oddOf d) (.g (rowOf (lane R (oddOf d)))) := by
  unfold separate; rw [hs, ht]; simp only [ho, Bool.false_eq_true, if_false]

/-- The registers of another pair keep what they hold. -/
theorem rd_put_far (R : Regs) (d r : Reg) (v : VReg) (h : evenOf r ≠ evenOf d) : rd (wr (separate R d) d v) r = rd R r := by
  have hd : d ≠ r := fun e => h (e ▸ rfl)
  have he : evenOf d ≠ r := fun e => h (by rw [← e, evenOf_evenOf])
  have ho : oddOf d ≠ r := fun e => h (by rw [← e, evenOf_oddOf])
  rw [rd_wr_other _ _ hd]
  by_cases hp : inPair R d
  · obtain ⟨slot, stride, hs, ht⟩ := hp
    cases hb : d.getLsbD 0
    · rw [separate_even R d slot stride hs ht hb, rd_wr_other _ _ ho]
    · rw [separate_odd R d slot stride hs ht hb, rd_wr_other _ _ he]
  · rw [separate_alone R d hp]

/-- A write to one register keeps every lane of every other register (R52). -/
theorem lane_put_other (R : Regs) (hR : pairsOk R) (d r : Reg) (v : VReg) (hv : ∀ x, v ≠ .p x) (h : r ≠ d) (i : Nat)
    (hi : i < 32) : lane (wr (separate R d) d v) r i = lane R r i := by
  by_cases hp : evenOf r = evenOf d
  · rcases same_pair r d hp h with ⟨hr, hd, hb⟩ | ⟨hr, hd, hb⟩
    · -- the even partner of an odd destination
      have hre : r.getLsbD 0 = false := by rw [hr]; exact odd_evenOf d
      have hro : oddOf r = d := by rw [hr, oddOf_evenOf, ← hd]
      by_cases hq : inPair R d
      · obtain ⟨slot, stride, hs, ht⟩ := hq
        rw [separate_odd R d slot stride hs ht hb, ← hr,
          lane_a_alone _ r (joinWords (loWord slot) stride) i (by rw [rd_wr_other _ _ (Ne.symm h), rd_wr_same])
            (.inr fun x => by rw [hro, rd_wr_same]; exact hv x),
          lane_a_pair R r slot stride i hre (hr ▸ hs) (by rw [hro, hd]; exact ht), loWord_joinWords, hiWord_joinWords]
      · rw [separate_alone R d hq]
        have hrd : rd (wr R d v) r = rd R r := rd_wr_other _ _ (Ne.symm h)
        cases hx : rd R r with
        | a slot =>
          rw [lane_a_alone _ r slot i (hrd.trans hx) (.inr fun x => by rw [hro, rd_wr_same]; exact hv x),
            lane_a_alone R r slot i hx (.inr fun x hxx => hq ⟨slot, x, hr ▸ hx, by rw [← hd, ← hro]; exact hxx⟩)]
        | u x => rw [lane_u _ r x i (hrd.trans hx), lane_u R r x i hx]
        | g row => rw [lane_g _ r row i (hrd.trans hx), lane_g R r row i hx]
        | p x => exact absurd (hR r x hx).1 (by rw [hre]; decide)
    · -- the odd partner of an even destination
      have hro : r.getLsbD 0 = true := by rw [hr]; exact odd_oddOf d
      by_cases hq : inPair R d
      · obtain ⟨slot, stride, hs, ht⟩ := hq
        rw [separate_even R d slot stride hs ht hb,
          lane_g _ r (rowOf (lane R (oddOf d))) i (by rw [rd_wr_other _ _ (Ne.symm h), hr, rd_wr_same]), rowLane_rowOf _ _ hi,
          hr]
      · rw [separate_alone R d hq]
        have hrd : rd (wr R d v) r = rd R r := rd_wr_other _ _ (Ne.symm h)
        cases hx : rd R r with
        | a slot => rw [lane_a_alone _ r slot i (hrd.trans hx) (.inl hro), lane_a_alone R r slot i hx (.inl hro)]
        | u x => rw [lane_u _ r x i (hrd.trans hx), lane_u R r x i hx]
        | g row => rw [lane_g _ r row i (hrd.trans hx), lane_g R r row i hx]
        | p x =>
          obtain ⟨-, slot, hs⟩ := hR r x hx
          exact absurd ⟨slot, x, by rw [← hp]; exact hs, by rw [← hr]; exact hx⟩ hq
  · apply lane_congr
    · exact rd_put_far R d r v hp
    · exact rd_put_far R d _ v (by rwa [evenOf_evenOf])
    · exact rd_put_far R d _ v (by rwa [evenOf_oddOf])

/-- After the write no odd partner of the destination holds a P tag. -/
theorem no_p_beside (R : Regs) (hR : pairsOk R) (d : Reg) (v : VReg) (hd : d.getLsbD 0 = false) (x : Word) :
    rd (wr (separate R d) d v) (oddOf d) ≠ .p x := by
  have hn : d ≠ oddOf d := fun e => by have := odd_oddOf d; rw [← e, hd] at this; exact nomatch this
  rw [rd_wr_other _ _ hn]
  by_cases hq : inPair R d
  · obtain ⟨slot, stride, hs, ht⟩ := hq
    rw [separate_even R d slot stride hs ht hd, rd_wr_same]
    exact fun e => nomatch e
  · rw [separate_alone R d hq]
    intro hx
    obtain ⟨-, slot, hs⟩ := hR _ x hx
    exact hq ⟨slot, x, by rw [← evenOf_oddOf]; exact hs, hx⟩

/-- What the destination's own lanes read. -/
theorem lane_put_same (R : Regs) (hR : pairsOk R) (d : Reg) (v : VReg) (i : Nat) :
    lane (wr (separate R d) d v) d i = match v with
      | .u x => x
      | .a slot => loWord slot + BitVec.ofNat 32 i * hiWord slot
      | .g row => rowLane row i
      | .p _ => lane (wr (separate R d) d v) d i := by
  cases v with
  | u x => exact lane_u _ d x i (rd_wr_same _ _ _)
  | g row => exact lane_g _ d row i (rd_wr_same _ _ _)
  | p x => rfl
  | a slot =>
    refine lane_a_alone _ d slot i (rd_wr_same _ _ _) ?_
    cases hd : d.getLsbD 0
    · exact .inr (no_p_beside R hR d _ hd)
    · exact .inl rfl

/-- A write keeps P tags beside A tags (R45). -/
theorem pairsOk_put (R : Regs) (hR : pairsOk R) (d : Reg) (v : VReg) (hv : ∀ x, v ≠ .p x) :
    pairsOk (wr (separate R d) d v) := by
  intro r x hx
  by_cases hrd : r = d
  · subst hrd; rw [rd_wr_same] at hx; exact absurd hx (hv x)
  · by_cases hp : evenOf r = evenOf d
    · rcases same_pair r d hp hrd with ⟨hr, hd, hb⟩ | ⟨hr, hd, hb⟩
      · -- even partner: it never gets a P tag
        exfalso
        have hre : r.getLsbD 0 = false := by rw [hr]; exact odd_evenOf d
        rw [rd_wr_other _ _ (Ne.symm hrd)] at hx
        by_cases hq : inPair R d
        · obtain ⟨slot, stride, hs, ht⟩ := hq
          rw [separate_odd R d slot stride hs ht hb, ← hr, rd_wr_same] at hx
          exact nomatch hx
        · rw [separate_alone R d hq] at hx
          have := (hR r x hx).1
          rw [hre] at this; exact nomatch this
      · rw [hr] at hx; exact absurd hx (no_p_beside R hR d v hb x)
    · rw [rd_put_far R d r v hp] at hx
      obtain ⟨h1, slot, hs⟩ := hR r x hx
      exact ⟨h1, slot, by rw [rd_put_far R d _ v (by rwa [evenOf_evenOf])]; exact hs⟩

/-! ### The writes of one instruction to a register (R48 to R51) -/

/-- The lanes a shape can hold: one value, an arithmetic progression, or anything. -/
def fits32 (f : Nat → Word) : Shape → Prop
  | .u => ∀ i < 32, f i = f 0
  | .a => ∀ i < 32, f i = f 0 + BitVec.ofNat 32 i * (f 1 - f 0)
  | .g => True

theorem g_ne_p (row : Vector Word 32) (x : Word) : VReg.g row ≠ .p x := fun e => nomatch e

theorem store32_ne_p (f : Nat → Word) (sh : Shape) (x : Word) : store32 f sh ≠ .p x := by
  cases sh <;> simp only [store32]
  · exact fun e => nomatch e
  · split <;> exact fun e => nomatch e
  · exact fun e => nomatch e

theorem fullMask_getLsbD (i : Nat) (hi : i < 32) : fullMask.getLsbD i = true := by
  revert i; decide

/-- R48, R49: the active lanes of the destination get the result, every other lane of every register stays. -/
theorem lane_write32 (R : Regs) (hR : pairsOk R) (act : Word) (d : Reg) (f : Nat → Word) (sh : Shape)
    (hf : act = fullMask → fits32 f sh) (r : Reg) (i : Nat) (hi : i < 32) :
    lane (write32 R act d f sh) r i = if r = d ∧ act.getLsbD i = true then f i else lane R r i := by
  unfold write32
  split
  · rename_i h; subst h; simp
  · split
    · rename_i h
      by_cases hr : r = d
      · subst hr
        rw [lane_put_same R hR, if_pos ⟨rfl, by rw [h]; exact fullMask_getLsbD i hi⟩]
        have hf := hf h
        cases sh with
        | u => exact (hf i hi).symm
        | g => exact rowLane_rowOf f i hi
        | a =>
          simp only [store32]
          by_cases h0 : f 1 - f 0 = 0
          · rw [if_pos h0]
            have := hf i hi
            rw [h0] at this
            simpa using this.symm
          · rw [if_neg h0]
            simp only [loWord_joinWords, hiWord_joinWords]
            exact (hf i hi).symm
      · rw [lane_put_other R hR d r _ (store32_ne_p f sh) hr i hi, if_neg (fun h => hr h.1)]
    · by_cases hr : r = d
      · subst hr
        rw [lane_put_same R hR]
        simp only [rowLane_rowOf _ _ hi, true_and]
      · rw [lane_put_other R hR d r _ (g_ne_p _) hr i hi, if_neg (fun h => hr h.1)]

theorem pairsOk_write32 (R : Regs) (hR : pairsOk R) (act : Word) (d : Reg) (f : Nat → Word) (sh : Shape) :
    pairsOk (write32 R act d f sh) := by
  unfold write32
  split
  · exact hR
  · split
    · exact pairsOk_put R hR d _ (store32_ne_p f sh)
    · exact pairsOk_put R hR d _ (g_ne_p _)

/-! ### The writes of one instruction to a pair (R46, R49 to R51) -/

/-- The lanes a pair's shape can hold. -/
def fits64 (f : Nat → DWord) : Shape → Prop
  | .u => ∀ i < 32, f i = f 0
  | .a => ∀ i < 32, f i = f 0 + BitVec.ofNat 64 i * (f 1 - f 0)
  | .g => True

theorem joinWords_split (x : DWord) : joinWords (loWord x) (hiWord x) = x := by
  apply BitVec.eq_of_toNat_eq
  rw [joinWords, BitVec.toNat_append, ← Nat.shiftLeft_add_eq_or_of_lt (loWord x).isLt, Nat.shiftLeft_eq, loWord, hiWord,
    BitVec.extractLsb'_toNat, BitVec.extractLsb'_toNat, Nat.shiftRight_eq_div_pow, Nat.shiftRight_eq_div_pow]
  have := x.isLt
  omega

/-- Both registers of a pair replaced. -/
def putPairRegs (R : Regs) (k : Pair) (lo hi : VReg) : Regs := wr (wr R (pairReg k) lo) (oddOf (pairReg k)) hi

theorem pairReg_ne_odd (k : Pair) : pairReg k ≠ oddOf (pairReg k) := by
  intro h; rw [← evenOf_pairReg] at h; exact evenOf_ne_oddOf _ _ (by rw [oddOf_evenOf] at h; exact h)

theorem rd_pair_lo (R : Regs) (k : Pair) (lo hi : VReg) : rd (putPairRegs R k lo hi) (pairReg k) = lo := by
  rw [putPairRegs, rd_wr_other _ _ (pairReg_ne_odd k).symm, rd_wr_same]

theorem rd_pair_hi (R : Regs) (k : Pair) (lo hi : VReg) : rd (putPairRegs R k lo hi) (oddOf (pairReg k)) = hi := by
  rw [putPairRegs, rd_wr_same]

theorem rd_pair_far (R : Regs) (k : Pair) (lo hi : VReg) (r : Reg) (h : evenOf r ≠ pairReg k) :
    rd (putPairRegs R k lo hi) r = rd R r := by
  rw [putPairRegs, rd_wr_other, rd_wr_other]
  · rintro rfl; exact h (evenOf_pairReg k)
  · rintro rfl; exact h (by rw [evenOf_oddOf, evenOf_pairReg])

theorem lane_pair_far (R : Regs) (k : Pair) (lo hi : VReg) (r : Reg) (h : evenOf r ≠ pairReg k) (i : Nat) :
    lane (putPairRegs R k lo hi) r i = lane R r i :=
  lane_congr _ _ _ _ (rd_pair_far R k lo hi r h) (rd_pair_far R k lo hi _ (by rwa [evenOf_evenOf]))
    (rd_pair_far R k lo hi _ (by rwa [evenOf_oddOf]))

theorem pairsOk_pair (R : Regs) (hR : pairsOk R) (k : Pair) (lo hi : VReg) (hlo : ∀ x, lo ≠ .p x)
    (hhi : ∀ x, hi = .p x → ∃ slot, lo = .a slot) : pairsOk (putPairRegs R k lo hi) := by
  intro r x hx
  by_cases h : evenOf r = pairReg k
  · rcases even_or_odd r with he | ho
    · rw [he, h, rd_pair_lo] at hx; exact absurd hx (hlo x)
    · have hr : r = oddOf (pairReg k) := by rw [ho, ← oddOf_evenOf, h]
      rw [hr, rd_pair_hi] at hx
      obtain ⟨slot, hs⟩ := hhi x hx
      refine ⟨by rw [hr]; exact odd_oddOf _, slot, ?_⟩
      rw [h, rd_pair_lo]; exact hs
  · rw [rd_pair_far R k lo hi r h] at hx
    obtain ⟨h1, slot, hs⟩ := hR r x hx
    exact ⟨h1, slot, by rw [rd_pair_far R k lo hi _ (by rwa [evenOf_evenOf])]; exact hs⟩

theorem pairLane_u (R : Regs) (k : Pair) (x y : Word) (i : Nat) :
    pairLane (putPairRegs R k (.u x) (.u y)) k i = joinWords x y := by
  rw [pairLane, lane_u _ _ x i (rd_pair_lo R k _ _), lane_u _ _ y i (rd_pair_hi R k _ _)]

theorem pairLane_g (R : Regs) (k : Pair) (f : Nat → DWord) (i : Nat) (hi : i < 32) :
    pairLane (putPairRegs R k (.g (rowOf fun n => loWord (f n))) (.g (rowOf fun n => hiWord (f n)))) k i = f i := by
  rw [pairLane, lane_g _ _ _ i (rd_pair_lo R k _ _), lane_g _ _ _ i (rd_pair_hi R k _ _), rowLane_rowOf _ _ hi,
    rowLane_rowOf _ _ hi, joinWords_split]

theorem pairLane_a (R : Regs) (k : Pair) (slot : DWord) (stride : Word) (i : Nat) :
    pairLane (putPairRegs R k (.a slot) (.p stride)) k i = affine64 slot stride i := by
  have he : (pairReg k).getLsbD 0 = false := by rw [← evenOf_pairReg]; exact odd_evenOf _
  rw [pairLane, lane_a_pair _ _ slot stride i he (rd_pair_lo R k _ _) (rd_pair_hi R k _ _), ← loWord_affine64]
  have : lane (putPairRegs R k (.a slot) (.p stride)) (oddOf (pairReg k)) i = hiWord (affine64 slot stride i) := by
    simp only [lane, rd_pair_hi, evenOf_oddOf, evenOf_pairReg, rd_pair_lo]
  rw [this, joinWords_split]

theorem sext64_loWord (x : DWord) (h : fitsS32 x = true) : sext64 (loWord x) = x := by simpa [fitsS32] using h

/-- What a write to a pair leaves: the result in its active lanes. -/
theorem pairLane_write64 (R : Regs) (act : Word) (k : Pair) (f : Nat → DWord) (sh : Shape)
    (hf : act = fullMask → fits64 f sh) (i : Nat) (hi : i < 32) :
    pairLane (write64 R act k f sh) k i = if act.getLsbD i = true then f i else pairLane R k i := by
  unfold write64
  split
  · rename_i h; subst h; simp
  · split
    · rename_i h
      rw [if_pos (by rw [h]; exact fullMask_getLsbD i hi)]
      have hf := hf h
      cases sh with
      | u => exact (pairLane_u R k _ _ i).trans ((joinWords_split _).trans (hf i hi).symm)
      | g => exact pairLane_g R k f i hi
      | a =>
        simp only
        split
        · rename_i h0
          refine (pairLane_u R k _ _ i).trans ((joinWords_split _).trans ?_)
          have := hf i hi
          rw [h0] at this
          simpa using this.symm
        · split
          · rename_i h1
            refine (pairLane_a R k _ _ i).trans ?_
            rw [affine64, sext64_loWord _ h1]
            exact (hf i hi).symm
          · exact pairLane_g R k f i hi
    · exact (pairLane_g R k (fun i => if act.getLsbD i then f i else pairLane R k i) i hi)

/-- A write to a pair keeps every lane of every other register. -/
theorem lane_write64_other (R : Regs) (act : Word) (k : Pair) (f : Nat → DWord) (sh : Shape) (r : Reg)
    (h : evenOf r ≠ pairReg k) (i : Nat) : lane (write64 R act k f sh) r i = lane R r i := by
  unfold write64
  split
  · rfl
  · split
    · cases sh with
      | u => exact lane_pair_far R k _ _ r h i
      | g => exact lane_pair_far R k _ _ r h i
      | a =>
        simp only
        split
        · exact lane_pair_far R k _ _ r h i
        · split <;> exact lane_pair_far R k _ _ r h i
    · exact lane_pair_far R k _ _ r h i

theorem pairsOk_write64 (R : Regs) (hR : pairsOk R) (act : Word) (k : Pair) (f : Nat → DWord) (sh : Shape) :
    pairsOk (write64 R act k f sh) := by
  have hu (x y : Word) : pairsOk (putPairRegs R k (.u x) (.u y)) :=
    pairsOk_pair R hR k _ _ (fun _ e => nomatch e) fun _ e => nomatch e
  have hg (x y : Vector Word 32) : pairsOk (putPairRegs R k (.g x) (.g y)) :=
    pairsOk_pair R hR k _ _ (fun _ e => nomatch e) fun _ e => nomatch e
  unfold write64
  split
  · exact hR
  · split
    · cases sh with
      | u => exact hu _ _
      | g => exact hg _ _
      | a =>
        simp only
        split
        · exact hu _ _
        · split
          · exact pairsOk_pair R hR k _ _ (fun _ e => nomatch e) fun _ _ => ⟨_, rfl⟩
          · exact hg _ _
    · exact hg _ _

/-! ### Under an element type (R76) -/

/-- The lanes a shape can hold under a type. -/
def fitsT (t : ETy) (f : Nat → DWord) (sh : Shape) : Prop :=
  if t.is64 then fits64 f sh else fits32 (fun i => loWord (f i)) sh

theorem laneT_writeT (R : Regs) (hR : pairsOk R) (act : Word) (t : ETy) (d : Reg) (f : Nat → DWord) (sh : Shape)
    (hf : act = fullMask → fitsT t f sh) (i : Nat) (hi : i < 32) :
    laneT (writeT R act t d f sh) t d i = if act.getLsbD i = true then asHeld t (f i) else laneT R t d i := by
  unfold fitsT at hf
  unfold laneT writeT asHeld
  split
  · rename_i h
    rw [pairLane_write64 R act (regPair d) f sh (fun h' => by simpa [h] using hf h') i hi]
  · rename_i h
    rw [lane_write32 R hR act d _ sh (fun h' => by simpa [h] using hf h') d i hi]
    split <;> simp_all

theorem lane_writeT_other (R : Regs) (hR : pairsOk R) (act : Word) (t : ETy) (d : Reg) (f : Nat → DWord) (sh : Shape)
    (hf : act = fullMask → fitsT t f sh) (r : Reg) (h : r ∉ typedRegs t d) (i : Nat) (hi : i < 32) :
    lane (writeT R act t d f sh) r i = lane R r i := by
  unfold fitsT at hf
  unfold typedRegs at h
  unfold writeT
  split
  · rename_i ht
    simp only [ht, if_true, List.mem_cons, List.not_mem_nil, or_false, not_or] at h
    apply lane_write64_other
    rw [pairReg_regPair]
    intro he
    rcases even_or_odd r with h1 | h1
    · exact h.1 (h1.trans he)
    · exact h.2 (h1.trans (by rw [← oddOf_evenOf, he, oddOf_evenOf]))
  · rename_i ht
    simp only [ht, if_false, List.mem_cons, List.not_mem_nil, or_false, Bool.false_eq_true] at h
    rw [lane_write32 R hR act d _ sh (fun h' => by simpa [ht] using hf h') r i hi, if_neg (fun e => h e.1)]

theorem pairsOk_writeT (R : Regs) (hR : pairsOk R) (act : Word) (t : ETy) (d : Reg) (f : Nat → DWord) (sh : Shape) :
    pairsOk (writeT R act t d f sh) := by
  unfold writeT; split
  · exact pairsOk_write64 R hR _ _ _ _
  · exact pairsOk_write32 R hR _ _ _ _

theorem writeT_none (R : Regs) (t : ETy) (d : Reg) (f : Nat → DWord) (sh : Shape) : writeT R 0 t d f sh = R := by
  unfold writeT write32 write64; simp

end Sys2Proof.Machine
end

