-- ==== Sys2Proof/Laws/Issue.lean ====
section
/-! SUPPORT. The laws of issue: rows and the budget check (R54), what an instruction of a wave leaves (R205), and which wave or
walker moves (R67, R230). -/

namespace Sys2Proof.Machine

/-! ### Rows (R45, R54) -/

theorem rowCount_le (R : Regs) : rowCount R ≤ 256 := by
  unfold rowCount
  exact Nat.le_trans (List.length_filter_le _ _) (by simp)

theorem rowCount_wr (R : Regs) (r : Reg) (v : VReg) : rowCount (wr R r v) ≤ rowCount R + 1 := by
  unfold rowCount wr
  rw [Vector.toList_set, ← List.countP_eq_length_filter, ← List.countP_eq_length_filter,
    List.countP_set (by simpa using r.isLt)]
  split <;> split <;> omega

theorem rowCount_separate (R : Regs) (d : Reg) : rowCount (separate R d) ≤ rowCount R + 1 := by
  unfold separate
  split
  · split <;> exact rowCount_wr _ _ _
  · omega

theorem rowCount_write32 (R : Regs) (act : Word) (d : Reg) (f : Nat → Word) (sh : Shape) :
    rowCount (write32 R act d f sh) ≤ rowCount R + 2 := by
  have h (v : VReg) : rowCount (wr (separate R d) d v) ≤ rowCount R + 2 := by
    have h1 := rowCount_wr (separate R d) d v
    have h2 := rowCount_separate R d
    omega
  unfold write32
  split
  · omega
  · split <;> exact h _

theorem rowCount_write64 (R : Regs) (act : Word) (k : Pair) (f : Nat → DWord) (sh : Shape) :
    rowCount (write64 R act k f sh) ≤ rowCount R + 2 := by
  have h (lo hi : VReg) : rowCount (putPairRegs R k lo hi) ≤ rowCount R + 2 := by
    have h1 := rowCount_wr (wr R (pairReg k) lo) (oddOf (pairReg k)) hi
    have h2 := rowCount_wr R (pairReg k) lo
    unfold putPairRegs
    omega
  unfold write64
  split
  · exact Nat.le_add_right _ _
  · split
    · cases sh with
      | u => exact h _ _
      | g => exact h _ _
      | a =>
        simp only
        split
        · exact h _ _
        · split <;> exact h _ _
    · exact h _ _

theorem rowCount_writeT (R : Regs) (act : Word) (t : ETy) (d : Reg) (f : Nat → DWord) (sh : Shape) :
    rowCount (writeT R act t d f sh) ≤ rowCount R + 2 := by
  unfold writeT
  split
  · exact rowCount_write64 _ _ _ _ _
  · exact rowCount_write32 _ _ _ _ _

/-! ### The budget check (R54) -/

theorem commit_ok (w : Wave) (n : Nat) (h : w.roomFor n) (f : Regs → Regs) (hr : rowCount (f w.regs) ≤ rowCount w.regs + n)
    (lanes : Word) : w.commit f 0 lanes = .ok { w with regs := f w.regs } := by
  obtain ⟨hl, hp, hb⟩ := h
  have hfit : ¬ w.gbudget.toNat < rowCount (f w.regs) :=
    Nat.not_lt.2 (Nat.le_trans (Nat.le_min.2 ⟨rowCount_le _, hr⟩) hb)
  unfold Wave.commit
  simp [hp, hl, retain, retainedRows, distinct, distinct.go, hfit]

/-- R54: a write whose rows exceed the budget traps `SHAPE_BUDGET` with the written lanes. -/
theorem commit_over (w : Wave) (f : Regs → Regs) (forced : Nat) (lanes : Word) (hp : w.replay = none)
    (h : w.gbudget.toNat < rowCount (f w.regs) + forced + (retainedRows w.log).length) :
    w.commit f forced lanes = trapAt .shapeBudget lanes 0 := by
  unfold Wave.commit; simp [hp, h]

theorem put_ok (w : Wave) (h : w.roomFor 2) (act : Word) (t : ETy) (d : Reg) (f : Nat → DWord) (sh : Shape) :
    w.put act t d f sh = .ok { w with regs := writeT w.regs act t d f sh } := by
  unfold Wave.put
  split
  · rename_i h0; subst h0; rw [writeT_none]
  · exact commit_ok w 2 h _ (rowCount_writeT _ _ _ _ _ _) act

/-! ### Issue (R205) -/

@[simp] theorem wave_setWave_same (s : State) (k : Nat) (w : Wave) : (s.setWave k w).wave k = some w :=
  Assoc.find_set_same _ _ _

theorem wave_setWave_other (s : State) {k k' : Nat} (w : Wave) (h : k ≠ k') : (s.setWave k w).wave k' = s.wave k' :=
  Assoc.find_set_other _ _ h

/-- The wave an effect is given: at its issue point, the word behind it. -/
def Wave.issued (w : Wave) : Wave := { w with wait := .none, retired := false, pc := w.pc + 4 }

/-- An instruction of a wave that changes only its own wave, and leaves the L1 of its core alone. -/
theorem issueOwn_ok (i : Instr) (s : State) (w w' : Wave) (effect : Wave → Run Wave) (hw : s.wave s.cur = some w)
    (he : effect w.issued = .ok w') (hk : keepsL1 w.atIssue i = true) :
    issueOwn i s effect = .next (s.onlyWave { w' with answers := [], retired := decide (w'.wait = .none) || decide (w'.wait = .ending) }) := by
  unfold issueOwn issue
  rw [hw]
  simp only
  rw [show ({ ({ w with wait := .none, retired := false } : Wave) with pc := w.pc + 4 } : Wave) = w.issued from rfl, he]
  simp only [hw]
  rw [show ({ w with wait := .none, retired := false } : Wave) = w.atIssue from rfl, hk]
  rfl

/-- An instruction of a wave whose effect is given with the state. -/
theorem issue_ok (i : Instr) (s s' : State) (w w' w₁ : Wave) (effect : State → Wave → Run (State × Wave))
    (hw : s.wave s.cur = some w) (he : effect s w.issued = .ok (s', w')) (hs : s'.wave s.cur = some w₁) :
    issue i s effect = .next ((if keepsL1 w.atIssue i then s' else s'.flushL1 (coreOf s.cur)).setWave s.cur
      { w' with answers := [], retired := decide (w'.wait = .none) || decide (w'.wait = .ending) }) := by
  unfold issue
  rw [hw]
  simp only
  rw [show ({ ({ w with wait := .none, retired := false } : Wave) with pc := w.pc + 4 } : Wave) = w.issued from rfl, he]
  simp only [hs]
  rfl

/-- A trap at the issue point (R206). -/
theorem issue_trap (i : Instr) (s : State) (w : Wave) (t : TrapInfo) (effect : State → Wave → Run (State × Wave))
    (hw : s.wave s.cur = some w) (he : effect s w.issued = .error (.trap t)) :
    issue i s effect = .next (s.raiseTrap s.cur w.atIssue t) := by
  unfold issue
  rw [hw]
  simp only
  rw [show ({ ({ w with wait := .none, retired := false } : Wave) with pc := w.pc + 4 } : Wave) = w.issued from rfl, he]
  rfl

/-- An instruction whose wave is in its slot always answers a next state. -/
theorem issue_next (i : Instr) (s : State) (effect : State → Wave → Run (State × Wave)) (h : (s.wave s.cur).isSome) :
    ∃ t, issue i s effect = .next t := by
  obtain ⟨w, hw⟩ := Option.isSome_iff_exists.1 h
  unfold issue
  rw [hw]
  simp only
  split
  · split <;> exact ⟨_, rfl⟩
  all_goals exact ⟨_, rfl⟩

theorem issueOwn_next (i : Instr) (s : State) (effect : Wave → Run Wave) (h : (s.wave s.cur).isSome) :
    ∃ t, issueOwn i s effect = .next t := issue_next i s _ h

/-! ### Which agent moves (R67, R230) -/

theorem ite_takes {α : Type} (c : Prop) [Decidable c] (x y : α) :
    (if c then some x else some y) = some x ∨ some y ≠ none ∧ (if c then some x else some y) = some y := by
  split <;> simp

/-- A fold that keeps what it has or takes the next member: it ends with what it began with or a member, and with nothing only where
it began so and met no member. -/
theorem kept_mem {α : Type} (f : Option α → α → Option α) (hf : ∀ b x, f b x = some x ∨ b ≠ none ∧ f b x = b) (l : List α)
    (o : Option α) :
    (∀ x, l.foldl f o = some x → o = some x ∨ x ∈ l) ∧ (l.foldl f o = none → o = none ∧ l = []) := by
  induction l generalizing o with
  | nil => simp
  | cons a t ih =>
    simp only [List.foldl_cons, List.mem_cons]
    obtain h | ⟨hb, h⟩ := hf o a
    · exact ⟨fun x hx => (((ih _).1 x hx).imp_left fun e => by simpa [h, eq_comm] using e).elim (fun e => .inr (.inl e))
        fun e => .inr (.inr e),
        fun hx => absurd ((ih _).2 hx).1 (by simp [h])⟩
    · exact ⟨fun x hx => ((ih _).1 x hx).imp (fun e => by rwa [h] at e) .inr, fun hx => absurd ((ih _).2 hx).1 (by rwa [h])⟩

/-- The wave that a quad issues is one of its selectable waves. -/
theorem pickWave_selectable (s : State) (q k : Nat) (h : s.pickWave q = some k) :
    ∃ w, (k, w) ∈ s.waves ∧ k / 8 = q ∧ s.selectable k w = true := by
  unfold State.pickWave at h
  obtain ⟨x, hx, rfl⟩ := Option.map_eq_some_iff.1 h
  obtain h | h := (kept_mem _ (fun b x => by cases b <;> first | exact .inl rfl | exact ite_takes _ _ _) _ none).1 x hx
  · cases h
  · simp only [List.mem_filter, Bool.and_eq_true, beq_iff_eq] at h
    exact ⟨x.2, h.1, h.2.1, h.2.2⟩

/-- A quad with a selectable wave issues one. -/
theorem pickWave_isSome (s : State) (q : Nat) (x : Nat × Wave) (hx : x ∈ s.waves) (hq : x.1 / 8 = q) (h : s.selectable x.1 x.2 = true) :
    (s.pickWave q).isSome = true := by
  unfold State.pickWave
  rw [Option.isSome_map, Option.isSome_iff_ne_none]
  intro hn
  have hm : x ∈ s.waves.filter fun x => x.1 / 8 == q && s.selectable x.1 x.2 :=
    List.mem_filter.2 ⟨hx, by simp [hq, h]⟩
  have := ((kept_mem _ (fun b x => by cases b <;> first | exact .inl rfl | exact ite_takes _ _ _) _ none).2 hn).2
  rw [this] at hm
  cases hm

/-- The walker that a Millrace issues is one of its ready walkers. -/
theorem pickWalker_ready (s : State) (core k : Nat) (c : CoreState) (h : s.pickWalker core c = some k) :
    ∃ x ∈ c.walkers, k = core * 64 + x.1 ∧ s.walkerReady k x.2 = true := by
  unfold State.pickWalker at h
  obtain ⟨x, hx, rfl⟩ := Option.map_eq_some_iff.1 h
  obtain h | h := (kept_mem _ (fun b x => by cases b <;> first | exact .inl rfl | exact ite_takes _ _ _) _ none).1 x hx
  · cases h
  · exact ⟨x, (List.mem_filter.1 h).1, rfl, (List.mem_filter.1 h).2⟩

/-- With no poisoned row, nothing is renewed. -/
theorem renewRows_clean (s : State) (k : Nat) (gone : List Reg) (h : ∀ w, s.wave k = some w → w.badRows = []) :
    s.renewRows k gone = s := by
  unfold State.renewRows
  cases hw : s.wave k with
  | none => rfl
  | some w => simp [h w hw]

/-- With no poisoned row, no instruction meets one. -/
theorem struck_clean (w : Wave) (i : Instr) (h : w.badRows = []) : w.struck i = false := by
  simp [Wave.struck, h]

@[simp] theorem releasing_ok {α : Type} (scope : Option (BitVec 3)) (x : α) : (Run.releasing scope (.ok x) : Run α) = .ok x := rfl

@[simp] theorem releasing_trap {α : Type} (scope : Option (BitVec 3)) (t : TrapInfo) :
    (Run.releasing scope (.error (.trap t)) : Run α) = .error (.trap t) := rfl

end Sys2Proof.Machine
end

