-- ==== Sys2Proof/Laws/State.lean ====
section
/-! SUPPORT. What each update of State leaves of each field and each accessor, so that no proof unfolds a record update. -/

namespace Sys2Proof.Machine

/-! ### setWave -/

@[simp] theorem setWave_waves (s : State) (k : Nat) (w : Wave) : (s.setWave k w).waves = Assoc.set s.waves k w := rfl
@[simp] theorem setWave_blocks (s : State) (k : Nat) (w : Wave) : (s.setWave k w).blocks = s.blocks := rfl
@[simp] theorem setWave_cores (s : State) (k : Nat) (w : Wave) : (s.setWave k w).cores = s.cores := rfl
@[simp] theorem setWave_units (s : State) (k : Nat) (w : Wave) : (s.setWave k w).units = s.units := rfl
@[simp] theorem setWave_pavs (s : State) (k : Nat) (w : Wave) : (s.setWave k w).pavs = s.pavs := rfl
@[simp] theorem setWave_ctxs (s : State) (k : Nat) (w : Wave) : (s.setWave k w).ctxs = s.ctxs := rfl
@[simp] theorem setWave_grids (s : State) (k : Nat) (w : Wave) : (s.setWave k w).grids = s.grids := rfl
@[simp] theorem setWave_dists (s : State) (k : Nat) (w : Wave) : (s.setWave k w).dists = s.dists := rfl
@[simp] theorem setWave_coverage (s : State) (k : Nat) (w : Wave) : (s.setWave k w).coverage = s.coverage := rfl
@[simp] theorem setWave_filters (s : State) (k : Nat) (w : Wave) : (s.setWave k w).filters = s.filters := rfl
@[simp] theorem setWave_logs (s : State) (k : Nat) (w : Wave) : (s.setWave k w).logs = s.logs := rfl
@[simp] theorem setWave_pf (s : State) (k : Nat) (w : Wave) : (s.setWave k w).pf = s.pf := rfl
@[simp] theorem setWave_errors (s : State) (k : Nat) (w : Wave) : (s.setWave k w).errors = s.errors := rfl
@[simp] theorem setWave_errstat (s : State) (k : Nat) (w : Wave) : (s.setWave k w).errstat = s.errstat := rfl
@[simp] theorem setWave_mem (s : State) (k : Nat) (w : Wave) : (s.setWave k w).mem = s.mem := rfl
@[simp] theorem setWave_stores (s : State) (k : Nat) (w : Wave) : (s.setWave k w).stores = s.stores := rfl
@[simp] theorem setWave_l1 (s : State) (k : Nat) (w : Wave) : (s.setWave k w).l1 = s.l1 := rfl
@[simp] theorem setWave_drQueue (s : State) (k : Nat) (w : Wave) : (s.setWave k w).drQueue = s.drQueue := rfl
@[simp] theorem setWave_poisoned (s : State) (k : Nat) (w : Wave) : (s.setWave k w).poisoned = s.poisoned := rfl
@[simp] theorem setWave_sel (s : State) (k : Nat) (w : Wave) : (s.setWave k w).sel = s.sel := rfl
@[simp] theorem setWave_colls (s : State) (k : Nat) (w : Wave) : (s.setWave k w).colls = s.colls := rfl
@[simp] theorem setWave_hosts (s : State) (k : Nat) (w : Wave) : (s.setWave k w).hosts = s.hosts := rfl
@[simp] theorem setWave_loaded (s : State) (k : Nat) (w : Wave) : (s.setWave k w).loaded = s.loaded := rfl
@[simp] theorem setWave_failed (s : State) (k : Nat) (w : Wave) : (s.setWave k w).failed = s.failed := rfl
@[simp] theorem setWave_fabric (s : State) (k : Nat) (w : Wave) : (s.setWave k w).fabric = s.fabric := rfl
@[simp] theorem setWave_ingress (s : State) (k : Nat) (w : Wave) : (s.setWave k w).ingress = s.ingress := rfl
@[simp] theorem setWave_ended (s : State) (k : Nat) (w : Wave) : (s.setWave k w).ended = s.ended := rfl
@[simp] theorem setWave_out (s : State) (k : Nat) (w : Wave) : (s.setWave k w).out = s.out := rfl
@[simp] theorem setWave_clock (s : State) (k : Nat) (w : Wave) : (s.setWave k w).clock = s.clock := rfl
@[simp] theorem setWave_time (s : State) (k : Nat) (w : Wave) : (s.setWave k w).time = s.time := rfl
@[simp] theorem setWave_mhz (s : State) (k : Nat) (w : Wave) : (s.setWave k w).mhz = s.mhz := rfl
@[simp] theorem setWave_thermal (s : State) (k : Nat) (w : Wave) : (s.setWave k w).thermal = s.thermal := rfl
@[simp] theorem setWave_exited (s : State) (k : Nat) (w : Wave) : (s.setWave k w).exited = s.exited := rfl
@[simp] theorem setWave_tickDue (s : State) (k : Nat) (w : Wave) : (s.setWave k w).tickDue = s.tickDue := rfl
@[simp] theorem setWave_issued (s : State) (k : Nat) (w : Wave) : (s.setWave k w).issued = s.issued := rfl
@[simp] theorem setWave_agenda (s : State) (k : Nat) (w : Wave) : (s.setWave k w).agenda = s.agenda := rfl
@[simp] theorem setWave_steps (s : State) (k : Nat) (w : Wave) : (s.setWave k w).steps = s.steps := rfl
@[simp] theorem setWave_cur (s : State) (k : Nat) (w : Wave) : (s.setWave k w).cur = s.cur := rfl
@[simp] theorem setWave_curWalker (s : State) (k : Nat) (w : Wave) : (s.setWave k w).curWalker = s.curWalker := rfl
@[simp] theorem setWave_fresh (s : State) (k : Nat) (w : Wave) : (s.setWave k w).fresh = s.fresh := rfl
@[simp] theorem setWave_block (s : State) (k : Nat) (w : Wave) (j : Nat) : (s.setWave k w).block j = s.block j := rfl
@[simp] theorem setWave_core (s : State) (k : Nat) (w : Wave) (j : Nat) : (s.setWave k w).core j = s.core j := rfl
@[simp] theorem setWave_unit (s : State) (k : Nat) (w : Wave) (j : Nat) : (s.setWave k w).unit j = s.unit j := rfl
@[simp] theorem setWave_pav (s : State) (k : Nat) (w : Wave) (j : Nat) : (s.setWave k w).pav j = s.pav j := rfl
@[simp] theorem setWave_queue (s : State) (k : Nat) (w : Wave) (p q : Nat) : (s.setWave k w).queue p q = s.queue p q := rfl
@[simp] theorem setWave_desc (s : State) (k : Nat) (w : Wave) (p q : Nat) : (s.setWave k w).desc p q = s.desc p q := rfl
@[simp] theorem setWave_ctx (s : State) (k : Nat) (w : Wave) (p c : Nat) : (s.setWave k w).ctx p c = s.ctx p c := rfl
@[simp] theorem setWave_hostOf (s : State) (k : Nat) (w : Wave) (j : Nat) : (s.setWave k w).hostOf j = s.hostOf j := rfl
@[simp] theorem setWave_errorAt (s : State) (k : Nat) (w : Wave) (d n : Nat) : (s.setWave k w).errorAt d n = s.errorAt d n := rfl
@[simp] theorem setWave_canonical (s : State) (k : Nat) (w : Wave) : (s.setWave k w).canonical = s.canonical := rfl
@[simp] theorem setWave_loadByte (s : State) (k : Nat) (w : Wave) (u a : Nat) : (s.setWave k w).loadByte u a = s.loadByte u a := rfl
@[simp] theorem setWave_accepted (s : State) (k : Nat) (w : Wave) (n : Nat) : (s.setWave k w).accepted n = s.accepted n := rfl

/-! ### setBlock -/

@[simp] theorem setBlock_waves (s : State) (k : Nat) (x : Block) : (s.setBlock k x).waves = s.waves := rfl
@[simp] theorem setBlock_blocks (s : State) (k : Nat) (x : Block) : (s.setBlock k x).blocks = Assoc.set s.blocks k x := rfl
@[simp] theorem setBlock_cores (s : State) (k : Nat) (x : Block) : (s.setBlock k x).cores = s.cores := rfl
@[simp] theorem setBlock_units (s : State) (k : Nat) (x : Block) : (s.setBlock k x).units = s.units := rfl
@[simp] theorem setBlock_pavs (s : State) (k : Nat) (x : Block) : (s.setBlock k x).pavs = s.pavs := rfl
@[simp] theorem setBlock_ctxs (s : State) (k : Nat) (x : Block) : (s.setBlock k x).ctxs = s.ctxs := rfl
@[simp] theorem setBlock_grids (s : State) (k : Nat) (x : Block) : (s.setBlock k x).grids = s.grids := rfl
@[simp] theorem setBlock_dists (s : State) (k : Nat) (x : Block) : (s.setBlock k x).dists = s.dists := rfl
@[simp] theorem setBlock_coverage (s : State) (k : Nat) (x : Block) : (s.setBlock k x).coverage = s.coverage := rfl
@[simp] theorem setBlock_filters (s : State) (k : Nat) (x : Block) : (s.setBlock k x).filters = s.filters := rfl
@[simp] theorem setBlock_logs (s : State) (k : Nat) (x : Block) : (s.setBlock k x).logs = s.logs := rfl
@[simp] theorem setBlock_pf (s : State) (k : Nat) (x : Block) : (s.setBlock k x).pf = s.pf := rfl
@[simp] theorem setBlock_errors (s : State) (k : Nat) (x : Block) : (s.setBlock k x).errors = s.errors := rfl
@[simp] theorem setBlock_errstat (s : State) (k : Nat) (x : Block) : (s.setBlock k x).errstat = s.errstat := rfl
@[simp] theorem setBlock_mem (s : State) (k : Nat) (x : Block) : (s.setBlock k x).mem = s.mem := rfl
@[simp] theorem setBlock_stores (s : State) (k : Nat) (x : Block) : (s.setBlock k x).stores = s.stores := rfl
@[simp] theorem setBlock_l1 (s : State) (k : Nat) (x : Block) : (s.setBlock k x).l1 = s.l1 := rfl
@[simp] theorem setBlock_drQueue (s : State) (k : Nat) (x : Block) : (s.setBlock k x).drQueue = s.drQueue := rfl
@[simp] theorem setBlock_poisoned (s : State) (k : Nat) (x : Block) : (s.setBlock k x).poisoned = s.poisoned := rfl
@[simp] theorem setBlock_sel (s : State) (k : Nat) (x : Block) : (s.setBlock k x).sel = s.sel := rfl
@[simp] theorem setBlock_colls (s : State) (k : Nat) (x : Block) : (s.setBlock k x).colls = s.colls := rfl
@[simp] theorem setBlock_hosts (s : State) (k : Nat) (x : Block) : (s.setBlock k x).hosts = s.hosts := rfl
@[simp] theorem setBlock_loaded (s : State) (k : Nat) (x : Block) : (s.setBlock k x).loaded = s.loaded := rfl
@[simp] theorem setBlock_failed (s : State) (k : Nat) (x : Block) : (s.setBlock k x).failed = s.failed := rfl
@[simp] theorem setBlock_fabric (s : State) (k : Nat) (x : Block) : (s.setBlock k x).fabric = s.fabric := rfl
@[simp] theorem setBlock_ingress (s : State) (k : Nat) (x : Block) : (s.setBlock k x).ingress = s.ingress := rfl
@[simp] theorem setBlock_ended (s : State) (k : Nat) (x : Block) : (s.setBlock k x).ended = s.ended := rfl
@[simp] theorem setBlock_out (s : State) (k : Nat) (x : Block) : (s.setBlock k x).out = s.out := rfl
@[simp] theorem setBlock_clock (s : State) (k : Nat) (x : Block) : (s.setBlock k x).clock = s.clock := rfl
@[simp] theorem setBlock_time (s : State) (k : Nat) (x : Block) : (s.setBlock k x).time = s.time := rfl
@[simp] theorem setBlock_mhz (s : State) (k : Nat) (x : Block) : (s.setBlock k x).mhz = s.mhz := rfl
@[simp] theorem setBlock_thermal (s : State) (k : Nat) (x : Block) : (s.setBlock k x).thermal = s.thermal := rfl
@[simp] theorem setBlock_exited (s : State) (k : Nat) (x : Block) : (s.setBlock k x).exited = s.exited := rfl
@[simp] theorem setBlock_tickDue (s : State) (k : Nat) (x : Block) : (s.setBlock k x).tickDue = s.tickDue := rfl
@[simp] theorem setBlock_issued (s : State) (k : Nat) (x : Block) : (s.setBlock k x).issued = s.issued := rfl
@[simp] theorem setBlock_agenda (s : State) (k : Nat) (x : Block) : (s.setBlock k x).agenda = s.agenda := rfl
@[simp] theorem setBlock_steps (s : State) (k : Nat) (x : Block) : (s.setBlock k x).steps = s.steps := rfl
@[simp] theorem setBlock_cur (s : State) (k : Nat) (x : Block) : (s.setBlock k x).cur = s.cur := rfl
@[simp] theorem setBlock_curWalker (s : State) (k : Nat) (x : Block) : (s.setBlock k x).curWalker = s.curWalker := rfl
@[simp] theorem setBlock_fresh (s : State) (k : Nat) (x : Block) : (s.setBlock k x).fresh = s.fresh := rfl
@[simp] theorem setBlock_wave (s : State) (k : Nat) (x : Block) (j : Nat) : (s.setBlock k x).wave j = s.wave j := rfl
@[simp] theorem setBlock_core (s : State) (k : Nat) (x : Block) (j : Nat) : (s.setBlock k x).core j = s.core j := rfl
@[simp] theorem setBlock_unit (s : State) (k : Nat) (x : Block) (j : Nat) : (s.setBlock k x).unit j = s.unit j := rfl
@[simp] theorem setBlock_pav (s : State) (k : Nat) (x : Block) (j : Nat) : (s.setBlock k x).pav j = s.pav j := rfl
@[simp] theorem setBlock_queue (s : State) (k : Nat) (x : Block) (p q : Nat) : (s.setBlock k x).queue p q = s.queue p q := rfl
@[simp] theorem setBlock_desc (s : State) (k : Nat) (x : Block) (p q : Nat) : (s.setBlock k x).desc p q = s.desc p q := rfl
@[simp] theorem setBlock_ctx (s : State) (k : Nat) (x : Block) (p c : Nat) : (s.setBlock k x).ctx p c = s.ctx p c := rfl
@[simp] theorem setBlock_hostOf (s : State) (k : Nat) (x : Block) (j : Nat) : (s.setBlock k x).hostOf j = s.hostOf j := rfl
@[simp] theorem setBlock_errorAt (s : State) (k : Nat) (x : Block) (d n : Nat) : (s.setBlock k x).errorAt d n = s.errorAt d n := rfl
@[simp] theorem setBlock_canonical (s : State) (k : Nat) (x : Block) : (s.setBlock k x).canonical = s.canonical := rfl
@[simp] theorem setBlock_loadByte (s : State) (k : Nat) (x : Block) (u a : Nat) : (s.setBlock k x).loadByte u a = s.loadByte u a := rfl
@[simp] theorem setBlock_accepted (s : State) (k : Nat) (x : Block) (n : Nat) : (s.setBlock k x).accepted n = s.accepted n := rfl

/-! ### setCore -/

@[simp] theorem setCore_waves (s : State) (k : Nat) (x : CoreState) : (s.setCore k x).waves = s.waves := rfl
@[simp] theorem setCore_blocks (s : State) (k : Nat) (x : CoreState) : (s.setCore k x).blocks = s.blocks := rfl
@[simp] theorem setCore_cores (s : State) (k : Nat) (x : CoreState) : (s.setCore k x).cores = Assoc.set s.cores k x := rfl
@[simp] theorem setCore_units (s : State) (k : Nat) (x : CoreState) : (s.setCore k x).units = s.units := rfl
@[simp] theorem setCore_pavs (s : State) (k : Nat) (x : CoreState) : (s.setCore k x).pavs = s.pavs := rfl
@[simp] theorem setCore_ctxs (s : State) (k : Nat) (x : CoreState) : (s.setCore k x).ctxs = s.ctxs := rfl
@[simp] theorem setCore_grids (s : State) (k : Nat) (x : CoreState) : (s.setCore k x).grids = s.grids := rfl
@[simp] theorem setCore_dists (s : State) (k : Nat) (x : CoreState) : (s.setCore k x).dists = s.dists := rfl
@[simp] theorem setCore_coverage (s : State) (k : Nat) (x : CoreState) : (s.setCore k x).coverage = s.coverage := rfl
@[simp] theorem setCore_filters (s : State) (k : Nat) (x : CoreState) : (s.setCore k x).filters = s.filters := rfl
@[simp] theorem setCore_logs (s : State) (k : Nat) (x : CoreState) : (s.setCore k x).logs = s.logs := rfl
@[simp] theorem setCore_pf (s : State) (k : Nat) (x : CoreState) : (s.setCore k x).pf = s.pf := rfl
@[simp] theorem setCore_errors (s : State) (k : Nat) (x : CoreState) : (s.setCore k x).errors = s.errors := rfl
@[simp] theorem setCore_errstat (s : State) (k : Nat) (x : CoreState) : (s.setCore k x).errstat = s.errstat := rfl
@[simp] theorem setCore_mem (s : State) (k : Nat) (x : CoreState) : (s.setCore k x).mem = s.mem := rfl
@[simp] theorem setCore_stores (s : State) (k : Nat) (x : CoreState) : (s.setCore k x).stores = s.stores := rfl
@[simp] theorem setCore_l1 (s : State) (k : Nat) (x : CoreState) : (s.setCore k x).l1 = s.l1 := rfl
@[simp] theorem setCore_drQueue (s : State) (k : Nat) (x : CoreState) : (s.setCore k x).drQueue = s.drQueue := rfl
@[simp] theorem setCore_poisoned (s : State) (k : Nat) (x : CoreState) : (s.setCore k x).poisoned = s.poisoned := rfl
@[simp] theorem setCore_sel (s : State) (k : Nat) (x : CoreState) : (s.setCore k x).sel = s.sel := rfl
@[simp] theorem setCore_colls (s : State) (k : Nat) (x : CoreState) : (s.setCore k x).colls = s.colls := rfl
@[simp] theorem setCore_hosts (s : State) (k : Nat) (x : CoreState) : (s.setCore k x).hosts = s.hosts := rfl
@[simp] theorem setCore_loaded (s : State) (k : Nat) (x : CoreState) : (s.setCore k x).loaded = s.loaded := rfl
@[simp] theorem setCore_failed (s : State) (k : Nat) (x : CoreState) : (s.setCore k x).failed = s.failed := rfl
@[simp] theorem setCore_fabric (s : State) (k : Nat) (x : CoreState) : (s.setCore k x).fabric = s.fabric := rfl
@[simp] theorem setCore_ingress (s : State) (k : Nat) (x : CoreState) : (s.setCore k x).ingress = s.ingress := rfl
@[simp] theorem setCore_ended (s : State) (k : Nat) (x : CoreState) : (s.setCore k x).ended = s.ended := rfl
@[simp] theorem setCore_out (s : State) (k : Nat) (x : CoreState) : (s.setCore k x).out = s.out := rfl
@[simp] theorem setCore_clock (s : State) (k : Nat) (x : CoreState) : (s.setCore k x).clock = s.clock := rfl
@[simp] theorem setCore_time (s : State) (k : Nat) (x : CoreState) : (s.setCore k x).time = s.time := rfl
@[simp] theorem setCore_mhz (s : State) (k : Nat) (x : CoreState) : (s.setCore k x).mhz = s.mhz := rfl
@[simp] theorem setCore_thermal (s : State) (k : Nat) (x : CoreState) : (s.setCore k x).thermal = s.thermal := rfl
@[simp] theorem setCore_exited (s : State) (k : Nat) (x : CoreState) : (s.setCore k x).exited = s.exited := rfl
@[simp] theorem setCore_tickDue (s : State) (k : Nat) (x : CoreState) : (s.setCore k x).tickDue = s.tickDue := rfl
@[simp] theorem setCore_issued (s : State) (k : Nat) (x : CoreState) : (s.setCore k x).issued = s.issued := rfl
@[simp] theorem setCore_agenda (s : State) (k : Nat) (x : CoreState) : (s.setCore k x).agenda = s.agenda := rfl
@[simp] theorem setCore_steps (s : State) (k : Nat) (x : CoreState) : (s.setCore k x).steps = s.steps := rfl
@[simp] theorem setCore_cur (s : State) (k : Nat) (x : CoreState) : (s.setCore k x).cur = s.cur := rfl
@[simp] theorem setCore_curWalker (s : State) (k : Nat) (x : CoreState) : (s.setCore k x).curWalker = s.curWalker := rfl
@[simp] theorem setCore_fresh (s : State) (k : Nat) (x : CoreState) : (s.setCore k x).fresh = s.fresh := rfl
@[simp] theorem setCore_wave (s : State) (k : Nat) (x : CoreState) (j : Nat) : (s.setCore k x).wave j = s.wave j := rfl
@[simp] theorem setCore_block (s : State) (k : Nat) (x : CoreState) (j : Nat) : (s.setCore k x).block j = s.block j := rfl
@[simp] theorem setCore_unit (s : State) (k : Nat) (x : CoreState) (j : Nat) : (s.setCore k x).unit j = s.unit j := rfl
@[simp] theorem setCore_pav (s : State) (k : Nat) (x : CoreState) (j : Nat) : (s.setCore k x).pav j = s.pav j := rfl
@[simp] theorem setCore_queue (s : State) (k : Nat) (x : CoreState) (p q : Nat) : (s.setCore k x).queue p q = s.queue p q := rfl
@[simp] theorem setCore_desc (s : State) (k : Nat) (x : CoreState) (p q : Nat) : (s.setCore k x).desc p q = s.desc p q := rfl
@[simp] theorem setCore_ctx (s : State) (k : Nat) (x : CoreState) (p c : Nat) : (s.setCore k x).ctx p c = s.ctx p c := rfl
@[simp] theorem setCore_hostOf (s : State) (k : Nat) (x : CoreState) (j : Nat) : (s.setCore k x).hostOf j = s.hostOf j := rfl
@[simp] theorem setCore_errorAt (s : State) (k : Nat) (x : CoreState) (d n : Nat) : (s.setCore k x).errorAt d n = s.errorAt d n := rfl
@[simp] theorem setCore_canonical (s : State) (k : Nat) (x : CoreState) : (s.setCore k x).canonical = s.canonical := rfl
@[simp] theorem setCore_loadByte (s : State) (k : Nat) (x : CoreState) (u a : Nat) : (s.setCore k x).loadByte u a = s.loadByte u a := rfl
@[simp] theorem setCore_accepted (s : State) (k : Nat) (x : CoreState) (n : Nat) : (s.setCore k x).accepted n = s.accepted n := rfl

/-! ### setUnit -/

@[simp] theorem setUnit_waves (s : State) (k : Nat) (x : MatrixUnit) : (s.setUnit k x).waves = s.waves := rfl
@[simp] theorem setUnit_blocks (s : State) (k : Nat) (x : MatrixUnit) : (s.setUnit k x).blocks = s.blocks := rfl
@[simp] theorem setUnit_cores (s : State) (k : Nat) (x : MatrixUnit) : (s.setUnit k x).cores = s.cores := rfl
@[simp] theorem setUnit_units (s : State) (k : Nat) (x : MatrixUnit) : (s.setUnit k x).units = Assoc.set s.units k x := rfl
@[simp] theorem setUnit_pavs (s : State) (k : Nat) (x : MatrixUnit) : (s.setUnit k x).pavs = s.pavs := rfl
@[simp] theorem setUnit_ctxs (s : State) (k : Nat) (x : MatrixUnit) : (s.setUnit k x).ctxs = s.ctxs := rfl
@[simp] theorem setUnit_grids (s : State) (k : Nat) (x : MatrixUnit) : (s.setUnit k x).grids = s.grids := rfl
@[simp] theorem setUnit_dists (s : State) (k : Nat) (x : MatrixUnit) : (s.setUnit k x).dists = s.dists := rfl
@[simp] theorem setUnit_coverage (s : State) (k : Nat) (x : MatrixUnit) : (s.setUnit k x).coverage = s.coverage := rfl
@[simp] theorem setUnit_filters (s : State) (k : Nat) (x : MatrixUnit) : (s.setUnit k x).filters = s.filters := rfl
@[simp] theorem setUnit_logs (s : State) (k : Nat) (x : MatrixUnit) : (s.setUnit k x).logs = s.logs := rfl
@[simp] theorem setUnit_pf (s : State) (k : Nat) (x : MatrixUnit) : (s.setUnit k x).pf = s.pf := rfl
@[simp] theorem setUnit_errors (s : State) (k : Nat) (x : MatrixUnit) : (s.setUnit k x).errors = s.errors := rfl
@[simp] theorem setUnit_errstat (s : State) (k : Nat) (x : MatrixUnit) : (s.setUnit k x).errstat = s.errstat := rfl
@[simp] theorem setUnit_mem (s : State) (k : Nat) (x : MatrixUnit) : (s.setUnit k x).mem = s.mem := rfl
@[simp] theorem setUnit_stores (s : State) (k : Nat) (x : MatrixUnit) : (s.setUnit k x).stores = s.stores := rfl
@[simp] theorem setUnit_l1 (s : State) (k : Nat) (x : MatrixUnit) : (s.setUnit k x).l1 = s.l1 := rfl
@[simp] theorem setUnit_drQueue (s : State) (k : Nat) (x : MatrixUnit) : (s.setUnit k x).drQueue = s.drQueue := rfl
@[simp] theorem setUnit_poisoned (s : State) (k : Nat) (x : MatrixUnit) : (s.setUnit k x).poisoned = s.poisoned := rfl
@[simp] theorem setUnit_sel (s : State) (k : Nat) (x : MatrixUnit) : (s.setUnit k x).sel = s.sel := rfl
@[simp] theorem setUnit_colls (s : State) (k : Nat) (x : MatrixUnit) : (s.setUnit k x).colls = s.colls := rfl
@[simp] theorem setUnit_hosts (s : State) (k : Nat) (x : MatrixUnit) : (s.setUnit k x).hosts = s.hosts := rfl
@[simp] theorem setUnit_loaded (s : State) (k : Nat) (x : MatrixUnit) : (s.setUnit k x).loaded = s.loaded := rfl
@[simp] theorem setUnit_failed (s : State) (k : Nat) (x : MatrixUnit) : (s.setUnit k x).failed = s.failed := rfl
@[simp] theorem setUnit_fabric (s : State) (k : Nat) (x : MatrixUnit) : (s.setUnit k x).fabric = s.fabric := rfl
@[simp] theorem setUnit_ingress (s : State) (k : Nat) (x : MatrixUnit) : (s.setUnit k x).ingress = s.ingress := rfl
@[simp] theorem setUnit_ended (s : State) (k : Nat) (x : MatrixUnit) : (s.setUnit k x).ended = s.ended := rfl
@[simp] theorem setUnit_out (s : State) (k : Nat) (x : MatrixUnit) : (s.setUnit k x).out = s.out := rfl
@[simp] theorem setUnit_clock (s : State) (k : Nat) (x : MatrixUnit) : (s.setUnit k x).clock = s.clock := rfl
@[simp] theorem setUnit_time (s : State) (k : Nat) (x : MatrixUnit) : (s.setUnit k x).time = s.time := rfl
@[simp] theorem setUnit_mhz (s : State) (k : Nat) (x : MatrixUnit) : (s.setUnit k x).mhz = s.mhz := rfl
@[simp] theorem setUnit_thermal (s : State) (k : Nat) (x : MatrixUnit) : (s.setUnit k x).thermal = s.thermal := rfl
@[simp] theorem setUnit_exited (s : State) (k : Nat) (x : MatrixUnit) : (s.setUnit k x).exited = s.exited := rfl
@[simp] theorem setUnit_tickDue (s : State) (k : Nat) (x : MatrixUnit) : (s.setUnit k x).tickDue = s.tickDue := rfl
@[simp] theorem setUnit_issued (s : State) (k : Nat) (x : MatrixUnit) : (s.setUnit k x).issued = s.issued := rfl
@[simp] theorem setUnit_agenda (s : State) (k : Nat) (x : MatrixUnit) : (s.setUnit k x).agenda = s.agenda := rfl
@[simp] theorem setUnit_steps (s : State) (k : Nat) (x : MatrixUnit) : (s.setUnit k x).steps = s.steps := rfl
@[simp] theorem setUnit_cur (s : State) (k : Nat) (x : MatrixUnit) : (s.setUnit k x).cur = s.cur := rfl
@[simp] theorem setUnit_curWalker (s : State) (k : Nat) (x : MatrixUnit) : (s.setUnit k x).curWalker = s.curWalker := rfl
@[simp] theorem setUnit_fresh (s : State) (k : Nat) (x : MatrixUnit) : (s.setUnit k x).fresh = s.fresh := rfl
@[simp] theorem setUnit_wave (s : State) (k : Nat) (x : MatrixUnit) (j : Nat) : (s.setUnit k x).wave j = s.wave j := rfl
@[simp] theorem setUnit_block (s : State) (k : Nat) (x : MatrixUnit) (j : Nat) : (s.setUnit k x).block j = s.block j := rfl
@[simp] theorem setUnit_core (s : State) (k : Nat) (x : MatrixUnit) (j : Nat) : (s.setUnit k x).core j = s.core j := rfl
@[simp] theorem setUnit_pav (s : State) (k : Nat) (x : MatrixUnit) (j : Nat) : (s.setUnit k x).pav j = s.pav j := rfl
@[simp] theorem setUnit_queue (s : State) (k : Nat) (x : MatrixUnit) (p q : Nat) : (s.setUnit k x).queue p q = s.queue p q := rfl
@[simp] theorem setUnit_desc (s : State) (k : Nat) (x : MatrixUnit) (p q : Nat) : (s.setUnit k x).desc p q = s.desc p q := rfl
@[simp] theorem setUnit_ctx (s : State) (k : Nat) (x : MatrixUnit) (p c : Nat) : (s.setUnit k x).ctx p c = s.ctx p c := rfl
@[simp] theorem setUnit_hostOf (s : State) (k : Nat) (x : MatrixUnit) (j : Nat) : (s.setUnit k x).hostOf j = s.hostOf j := rfl
@[simp] theorem setUnit_errorAt (s : State) (k : Nat) (x : MatrixUnit) (d n : Nat) : (s.setUnit k x).errorAt d n = s.errorAt d n := rfl
@[simp] theorem setUnit_canonical (s : State) (k : Nat) (x : MatrixUnit) : (s.setUnit k x).canonical = s.canonical := rfl
@[simp] theorem setUnit_loadByte (s : State) (k : Nat) (x : MatrixUnit) (u a : Nat) : (s.setUnit k x).loadByte u a = s.loadByte u a := rfl
@[simp] theorem setUnit_accepted (s : State) (k : Nat) (x : MatrixUnit) (n : Nat) : (s.setUnit k x).accepted n = s.accepted n := rfl

/-! ### setPav -/

@[simp] theorem setPav_waves (s : State) (k : Nat) (x : Pavilion) : (s.setPav k x).waves = s.waves := rfl
@[simp] theorem setPav_blocks (s : State) (k : Nat) (x : Pavilion) : (s.setPav k x).blocks = s.blocks := rfl
@[simp] theorem setPav_cores (s : State) (k : Nat) (x : Pavilion) : (s.setPav k x).cores = s.cores := rfl
@[simp] theorem setPav_units (s : State) (k : Nat) (x : Pavilion) : (s.setPav k x).units = s.units := rfl
@[simp] theorem setPav_pavs (s : State) (k : Nat) (x : Pavilion) : (s.setPav k x).pavs = Assoc.set s.pavs k x := rfl
@[simp] theorem setPav_ctxs (s : State) (k : Nat) (x : Pavilion) : (s.setPav k x).ctxs = s.ctxs := rfl
@[simp] theorem setPav_grids (s : State) (k : Nat) (x : Pavilion) : (s.setPav k x).grids = s.grids := rfl
@[simp] theorem setPav_dists (s : State) (k : Nat) (x : Pavilion) : (s.setPav k x).dists = s.dists := rfl
@[simp] theorem setPav_coverage (s : State) (k : Nat) (x : Pavilion) : (s.setPav k x).coverage = s.coverage := rfl
@[simp] theorem setPav_filters (s : State) (k : Nat) (x : Pavilion) : (s.setPav k x).filters = s.filters := rfl
@[simp] theorem setPav_logs (s : State) (k : Nat) (x : Pavilion) : (s.setPav k x).logs = s.logs := rfl
@[simp] theorem setPav_pf (s : State) (k : Nat) (x : Pavilion) : (s.setPav k x).pf = s.pf := rfl
@[simp] theorem setPav_errors (s : State) (k : Nat) (x : Pavilion) : (s.setPav k x).errors = s.errors := rfl
@[simp] theorem setPav_errstat (s : State) (k : Nat) (x : Pavilion) : (s.setPav k x).errstat = s.errstat := rfl
@[simp] theorem setPav_mem (s : State) (k : Nat) (x : Pavilion) : (s.setPav k x).mem = s.mem := rfl
@[simp] theorem setPav_stores (s : State) (k : Nat) (x : Pavilion) : (s.setPav k x).stores = s.stores := rfl
@[simp] theorem setPav_l1 (s : State) (k : Nat) (x : Pavilion) : (s.setPav k x).l1 = s.l1 := rfl
@[simp] theorem setPav_drQueue (s : State) (k : Nat) (x : Pavilion) : (s.setPav k x).drQueue = s.drQueue := rfl
@[simp] theorem setPav_poisoned (s : State) (k : Nat) (x : Pavilion) : (s.setPav k x).poisoned = s.poisoned := rfl
@[simp] theorem setPav_sel (s : State) (k : Nat) (x : Pavilion) : (s.setPav k x).sel = s.sel := rfl
@[simp] theorem setPav_colls (s : State) (k : Nat) (x : Pavilion) : (s.setPav k x).colls = s.colls := rfl
@[simp] theorem setPav_hosts (s : State) (k : Nat) (x : Pavilion) : (s.setPav k x).hosts = s.hosts := rfl
@[simp] theorem setPav_loaded (s : State) (k : Nat) (x : Pavilion) : (s.setPav k x).loaded = s.loaded := rfl
@[simp] theorem setPav_failed (s : State) (k : Nat) (x : Pavilion) : (s.setPav k x).failed = s.failed := rfl
@[simp] theorem setPav_fabric (s : State) (k : Nat) (x : Pavilion) : (s.setPav k x).fabric = s.fabric := rfl
@[simp] theorem setPav_ingress (s : State) (k : Nat) (x : Pavilion) : (s.setPav k x).ingress = s.ingress := rfl
@[simp] theorem setPav_ended (s : State) (k : Nat) (x : Pavilion) : (s.setPav k x).ended = s.ended := rfl
@[simp] theorem setPav_out (s : State) (k : Nat) (x : Pavilion) : (s.setPav k x).out = s.out := rfl
@[simp] theorem setPav_clock (s : State) (k : Nat) (x : Pavilion) : (s.setPav k x).clock = s.clock := rfl
@[simp] theorem setPav_time (s : State) (k : Nat) (x : Pavilion) : (s.setPav k x).time = s.time := rfl
@[simp] theorem setPav_mhz (s : State) (k : Nat) (x : Pavilion) : (s.setPav k x).mhz = s.mhz := rfl
@[simp] theorem setPav_thermal (s : State) (k : Nat) (x : Pavilion) : (s.setPav k x).thermal = s.thermal := rfl
@[simp] theorem setPav_exited (s : State) (k : Nat) (x : Pavilion) : (s.setPav k x).exited = s.exited := rfl
@[simp] theorem setPav_tickDue (s : State) (k : Nat) (x : Pavilion) : (s.setPav k x).tickDue = s.tickDue := rfl
@[simp] theorem setPav_issued (s : State) (k : Nat) (x : Pavilion) : (s.setPav k x).issued = s.issued := rfl
@[simp] theorem setPav_agenda (s : State) (k : Nat) (x : Pavilion) : (s.setPav k x).agenda = s.agenda := rfl
@[simp] theorem setPav_steps (s : State) (k : Nat) (x : Pavilion) : (s.setPav k x).steps = s.steps := rfl
@[simp] theorem setPav_cur (s : State) (k : Nat) (x : Pavilion) : (s.setPav k x).cur = s.cur := rfl
@[simp] theorem setPav_curWalker (s : State) (k : Nat) (x : Pavilion) : (s.setPav k x).curWalker = s.curWalker := rfl
@[simp] theorem setPav_fresh (s : State) (k : Nat) (x : Pavilion) : (s.setPav k x).fresh = s.fresh := rfl
@[simp] theorem setPav_wave (s : State) (k : Nat) (x : Pavilion) (j : Nat) : (s.setPav k x).wave j = s.wave j := rfl
@[simp] theorem setPav_block (s : State) (k : Nat) (x : Pavilion) (j : Nat) : (s.setPav k x).block j = s.block j := rfl
@[simp] theorem setPav_core (s : State) (k : Nat) (x : Pavilion) (j : Nat) : (s.setPav k x).core j = s.core j := rfl
@[simp] theorem setPav_unit (s : State) (k : Nat) (x : Pavilion) (j : Nat) : (s.setPav k x).unit j = s.unit j := rfl
@[simp] theorem setPav_ctx (s : State) (k : Nat) (x : Pavilion) (p c : Nat) : (s.setPav k x).ctx p c = s.ctx p c := rfl
@[simp] theorem setPav_hostOf (s : State) (k : Nat) (x : Pavilion) (j : Nat) : (s.setPav k x).hostOf j = s.hostOf j := rfl
@[simp] theorem setPav_errorAt (s : State) (k : Nat) (x : Pavilion) (d n : Nat) : (s.setPav k x).errorAt d n = s.errorAt d n := rfl
@[simp] theorem setPav_canonical (s : State) (k : Nat) (x : Pavilion) : (s.setPav k x).canonical = s.canonical := rfl
@[simp] theorem setPav_loadByte (s : State) (k : Nat) (x : Pavilion) (u a : Nat) : (s.setPav k x).loadByte u a = s.loadByte u a := rfl
@[simp] theorem setPav_accepted (s : State) (k : Nat) (x : Pavilion) (n : Nat) : (s.setPav k x).accepted n = s.accepted n := rfl

/-! ### emit -/

@[simp] theorem emit_waves (s : State) (m : OutMsg) : (s.emit m).waves = s.waves := rfl
@[simp] theorem emit_blocks (s : State) (m : OutMsg) : (s.emit m).blocks = s.blocks := rfl
@[simp] theorem emit_cores (s : State) (m : OutMsg) : (s.emit m).cores = s.cores := rfl
@[simp] theorem emit_units (s : State) (m : OutMsg) : (s.emit m).units = s.units := rfl
@[simp] theorem emit_pavs (s : State) (m : OutMsg) : (s.emit m).pavs = s.pavs := rfl
@[simp] theorem emit_ctxs (s : State) (m : OutMsg) : (s.emit m).ctxs = s.ctxs := rfl
@[simp] theorem emit_grids (s : State) (m : OutMsg) : (s.emit m).grids = s.grids := rfl
@[simp] theorem emit_dists (s : State) (m : OutMsg) : (s.emit m).dists = s.dists := rfl
@[simp] theorem emit_coverage (s : State) (m : OutMsg) : (s.emit m).coverage = s.coverage := rfl
@[simp] theorem emit_filters (s : State) (m : OutMsg) : (s.emit m).filters = s.filters := rfl
@[simp] theorem emit_logs (s : State) (m : OutMsg) : (s.emit m).logs = s.logs := rfl
@[simp] theorem emit_pf (s : State) (m : OutMsg) : (s.emit m).pf = s.pf := rfl
@[simp] theorem emit_errors (s : State) (m : OutMsg) : (s.emit m).errors = s.errors := rfl
@[simp] theorem emit_errstat (s : State) (m : OutMsg) : (s.emit m).errstat = s.errstat := rfl
@[simp] theorem emit_mem (s : State) (m : OutMsg) : (s.emit m).mem = s.mem := rfl
@[simp] theorem emit_stores (s : State) (m : OutMsg) : (s.emit m).stores = s.stores := rfl
@[simp] theorem emit_l1 (s : State) (m : OutMsg) : (s.emit m).l1 = s.l1 := rfl
@[simp] theorem emit_drQueue (s : State) (m : OutMsg) : (s.emit m).drQueue = s.drQueue := rfl
@[simp] theorem emit_poisoned (s : State) (m : OutMsg) : (s.emit m).poisoned = s.poisoned := rfl
@[simp] theorem emit_sel (s : State) (m : OutMsg) : (s.emit m).sel = s.sel := rfl
@[simp] theorem emit_colls (s : State) (m : OutMsg) : (s.emit m).colls = s.colls := rfl
@[simp] theorem emit_hosts (s : State) (m : OutMsg) : (s.emit m).hosts = s.hosts := rfl
@[simp] theorem emit_loaded (s : State) (m : OutMsg) : (s.emit m).loaded = s.loaded := rfl
@[simp] theorem emit_failed (s : State) (m : OutMsg) : (s.emit m).failed = s.failed := rfl
@[simp] theorem emit_fabric (s : State) (m : OutMsg) : (s.emit m).fabric = s.fabric := rfl
@[simp] theorem emit_ingress (s : State) (m : OutMsg) : (s.emit m).ingress = s.ingress := rfl
@[simp] theorem emit_ended (s : State) (m : OutMsg) : (s.emit m).ended = s.ended := rfl
@[simp] theorem emit_out (s : State) (m : OutMsg) : (s.emit m).out = s.out ++ [m] := rfl
@[simp] theorem emit_clock (s : State) (m : OutMsg) : (s.emit m).clock = s.clock := rfl
@[simp] theorem emit_time (s : State) (m : OutMsg) : (s.emit m).time = s.time := rfl
@[simp] theorem emit_mhz (s : State) (m : OutMsg) : (s.emit m).mhz = s.mhz := rfl
@[simp] theorem emit_thermal (s : State) (m : OutMsg) : (s.emit m).thermal = s.thermal := rfl
@[simp] theorem emit_exited (s : State) (m : OutMsg) : (s.emit m).exited = s.exited := rfl
@[simp] theorem emit_tickDue (s : State) (m : OutMsg) : (s.emit m).tickDue = s.tickDue := rfl
@[simp] theorem emit_issued (s : State) (m : OutMsg) : (s.emit m).issued = s.issued := rfl
@[simp] theorem emit_agenda (s : State) (m : OutMsg) : (s.emit m).agenda = s.agenda := rfl
@[simp] theorem emit_steps (s : State) (m : OutMsg) : (s.emit m).steps = s.steps := rfl
@[simp] theorem emit_cur (s : State) (m : OutMsg) : (s.emit m).cur = s.cur := rfl
@[simp] theorem emit_curWalker (s : State) (m : OutMsg) : (s.emit m).curWalker = s.curWalker := rfl
@[simp] theorem emit_fresh (s : State) (m : OutMsg) : (s.emit m).fresh = s.fresh := rfl
@[simp] theorem emit_wave (s : State) (m : OutMsg) (j : Nat) : (s.emit m).wave j = s.wave j := rfl
@[simp] theorem emit_block (s : State) (m : OutMsg) (j : Nat) : (s.emit m).block j = s.block j := rfl
@[simp] theorem emit_core (s : State) (m : OutMsg) (j : Nat) : (s.emit m).core j = s.core j := rfl
@[simp] theorem emit_unit (s : State) (m : OutMsg) (j : Nat) : (s.emit m).unit j = s.unit j := rfl
@[simp] theorem emit_pav (s : State) (m : OutMsg) (j : Nat) : (s.emit m).pav j = s.pav j := rfl
@[simp] theorem emit_queue (s : State) (m : OutMsg) (p q : Nat) : (s.emit m).queue p q = s.queue p q := rfl
@[simp] theorem emit_desc (s : State) (m : OutMsg) (p q : Nat) : (s.emit m).desc p q = s.desc p q := rfl
@[simp] theorem emit_ctx (s : State) (m : OutMsg) (p c : Nat) : (s.emit m).ctx p c = s.ctx p c := rfl
@[simp] theorem emit_hostOf (s : State) (m : OutMsg) (j : Nat) : (s.emit m).hostOf j = s.hostOf j := rfl
@[simp] theorem emit_errorAt (s : State) (m : OutMsg) (d n : Nat) : (s.emit m).errorAt d n = s.errorAt d n := rfl
@[simp] theorem emit_canonical (s : State) (m : OutMsg) : (s.emit m).canonical = s.canonical := rfl
@[simp] theorem emit_loadByte (s : State) (m : OutMsg) (u a : Nat) : (s.emit m).loadByte u a = s.loadByte u a := rfl
@[simp] theorem emit_accepted (s : State) (m : OutMsg) (n : Nat) : (s.emit m).accepted n = s.accepted n := rfl

/-! ### bump -/

@[simp] theorem bump_waves (s : State) : s.bump.waves = s.waves := rfl
@[simp] theorem bump_blocks (s : State) : s.bump.blocks = s.blocks := rfl
@[simp] theorem bump_cores (s : State) : s.bump.cores = s.cores := rfl
@[simp] theorem bump_units (s : State) : s.bump.units = s.units := rfl
@[simp] theorem bump_pavs (s : State) : s.bump.pavs = s.pavs := rfl
@[simp] theorem bump_ctxs (s : State) : s.bump.ctxs = s.ctxs := rfl
@[simp] theorem bump_grids (s : State) : s.bump.grids = s.grids := rfl
@[simp] theorem bump_dists (s : State) : s.bump.dists = s.dists := rfl
@[simp] theorem bump_coverage (s : State) : s.bump.coverage = s.coverage := rfl
@[simp] theorem bump_filters (s : State) : s.bump.filters = s.filters := rfl
@[simp] theorem bump_logs (s : State) : s.bump.logs = s.logs := rfl
@[simp] theorem bump_pf (s : State) : s.bump.pf = s.pf := rfl
@[simp] theorem bump_errors (s : State) : s.bump.errors = s.errors := rfl
@[simp] theorem bump_errstat (s : State) : s.bump.errstat = s.errstat := rfl
@[simp] theorem bump_mem (s : State) : s.bump.mem = s.mem := rfl
@[simp] theorem bump_stores (s : State) : s.bump.stores = s.stores := rfl
@[simp] theorem bump_l1 (s : State) : s.bump.l1 = s.l1 := rfl
@[simp] theorem bump_drQueue (s : State) : s.bump.drQueue = s.drQueue := rfl
@[simp] theorem bump_poisoned (s : State) : s.bump.poisoned = s.poisoned := rfl
@[simp] theorem bump_sel (s : State) : s.bump.sel = s.sel := rfl
@[simp] theorem bump_colls (s : State) : s.bump.colls = s.colls := rfl
@[simp] theorem bump_hosts (s : State) : s.bump.hosts = s.hosts := rfl
@[simp] theorem bump_loaded (s : State) : s.bump.loaded = s.loaded := rfl
@[simp] theorem bump_failed (s : State) : s.bump.failed = s.failed := rfl
@[simp] theorem bump_fabric (s : State) : s.bump.fabric = s.fabric := rfl
@[simp] theorem bump_ingress (s : State) : s.bump.ingress = s.ingress := rfl
@[simp] theorem bump_ended (s : State) : s.bump.ended = s.ended := rfl
@[simp] theorem bump_out (s : State) : s.bump.out = s.out := rfl
@[simp] theorem bump_clock (s : State) : s.bump.clock = s.clock := rfl
@[simp] theorem bump_time (s : State) : s.bump.time = s.time := rfl
@[simp] theorem bump_mhz (s : State) : s.bump.mhz = s.mhz := rfl
@[simp] theorem bump_thermal (s : State) : s.bump.thermal = s.thermal := rfl
@[simp] theorem bump_exited (s : State) : s.bump.exited = s.exited := rfl
@[simp] theorem bump_tickDue (s : State) : s.bump.tickDue = s.tickDue := rfl
@[simp] theorem bump_issued (s : State) : s.bump.issued = s.issued := rfl
@[simp] theorem bump_agenda (s : State) : s.bump.agenda = s.agenda := rfl
@[simp] theorem bump_steps (s : State) : s.bump.steps = s.steps := rfl
@[simp] theorem bump_cur (s : State) : s.bump.cur = s.cur := rfl
@[simp] theorem bump_curWalker (s : State) : s.bump.curWalker = s.curWalker := rfl
@[simp] theorem bump_fresh (s : State) : s.bump.fresh = s.fresh + 1 := rfl
@[simp] theorem bump_wave (s : State) (j : Nat) : s.bump.wave j = s.wave j := rfl
@[simp] theorem bump_block (s : State) (j : Nat) : s.bump.block j = s.block j := rfl
@[simp] theorem bump_core (s : State) (j : Nat) : s.bump.core j = s.core j := rfl
@[simp] theorem bump_unit (s : State) (j : Nat) : s.bump.unit j = s.unit j := rfl
@[simp] theorem bump_pav (s : State) (j : Nat) : s.bump.pav j = s.pav j := rfl
@[simp] theorem bump_queue (s : State) (p q : Nat) : s.bump.queue p q = s.queue p q := rfl
@[simp] theorem bump_desc (s : State) (p q : Nat) : s.bump.desc p q = s.desc p q := rfl
@[simp] theorem bump_ctx (s : State) (p c : Nat) : s.bump.ctx p c = s.ctx p c := rfl
@[simp] theorem bump_hostOf (s : State) (j : Nat) : s.bump.hostOf j = s.hostOf j := rfl
@[simp] theorem bump_errorAt (s : State) (d n : Nat) : s.bump.errorAt d n = s.errorAt d n := rfl
@[simp] theorem bump_canonical (s : State) : s.bump.canonical = s.canonical := rfl
@[simp] theorem bump_loadByte (s : State) (u a : Nat) : s.bump.loadByte u a = s.loadByte u a := rfl
@[simp] theorem bump_accepted (s : State) (n : Nat) : s.bump.accepted n = s.accepted n := rfl

/-! ### What was just set -/

@[simp] theorem wave_setWave (s : State) (k : Nat) (w : Wave) (j : Nat) :
    (s.setWave k w).wave j = if k = j then some w else s.wave j := Assoc.find_set _ _ _ _

@[simp] theorem block_setBlock (s : State) (k : Nat) (x : Block) (j : Nat) :
    (s.setBlock k x).block j = if k = j then some x else s.block j := Assoc.find_set _ _ _ _

@[simp] theorem core_setCore (s : State) (k : Nat) (x : CoreState) (j : Nat) :
    (s.setCore k x).core j = if k = j then x else s.core j := by
  unfold State.core State.setCore; rw [Assoc.find_set]; split <;> rfl

@[simp] theorem unit_setUnit (s : State) (k : Nat) (x : MatrixUnit) (j : Nat) :
    (s.setUnit k x).unit j = if k = j then x else s.unit j := by
  unfold State.unit State.setUnit; rw [Assoc.find_set]; split <;> rfl

@[simp] theorem pav_setPav (s : State) (k : Nat) (x : Pavilion) (j : Nat) :
    (s.setPav k x).pav j = if k = j then x else s.pav j := by
  unfold State.pav State.setPav; rw [Assoc.find_set]; split <;> rfl

theorem queue_setQueue (s : State) (p q : Nat) (x : QueueState) (p' q' : Nat) :
    (s.setQueue p q x).queue p' q' = if p = p' ∧ q = q' then x else s.queue p' q' := by
  unfold State.queue State.setQueue
  rw [pav_setPav]
  by_cases h : p = p'
  · subst h
    simp only [if_true, Assoc.find_set]
    by_cases h : q = q' <;> simp [h]
  · simp [h]

theorem desc_setDesc (s : State) (p q : Nat) (x : Line) (p' q' : Nat) :
    (s.setDesc p q x).desc p' q' = if p = p' ∧ q = q' then x else s.desc p' q' := by
  unfold State.desc State.setDesc
  rw [pav_setPav]
  by_cases h : p = p'
  · subst h
    simp only [if_true, Assoc.find_set]
    by_cases h : q = q' <;> simp [h]
  · simp [h]

theorem desc_setQueue (s : State) (p q : Nat) (x : QueueState) (p' q' : Nat) :
    (s.setQueue p q x).desc p' q' = s.desc p' q' := by
  unfold State.desc State.setQueue
  rw [pav_setPav]
  by_cases h : p = p' <;> simp [h]

theorem queue_setDesc (s : State) (p q : Nat) (x : Line) (p' q' : Nat) :
    (s.setDesc p q x).queue p' q' = s.queue p' q' := by
  unfold State.queue State.setDesc
  rw [pav_setPav]
  by_cases h : p = p' <;> simp [h]

/-- Setting a wave twice keeps the later. -/
theorem setWave_setWave (s : State) (k : Nat) (v w : Wave) : (s.setWave k v).setWave k w = s.setWave k w := by
  unfold State.setWave; simp [Assoc.set_set]

/-! ### The canonical form (assumption 2) -/

theorem canonical_def (s : State) : s.canonical = s.mem.wf := rfl

theorem reset_canonical : State.reset.canonical = true := rfl

end Sys2Proof.Machine
end

