-- ==== Sys2Proof/Laws/Memory.lean ====
section
/-! SUPPORT. What the shared operations on memory leave: the canonical form, the bytes that they do not name, and the fields of
State that they do not touch. -/

namespace Sys2Proof.Machine

/-! ### Performing cells -/

/-- The cells with an address from `lo` on and below `lo + n`. -/
def cellsBelow (cells : List Host.Cell) (lo n : Nat) : Nat := cells.countP fun c => decide (lo ≤ c.1) && decide (c.1 < lo + n)

/-- One address more: its own cells come on top. -/
theorem cellsBelow_succ (cells : List Host.Cell) (lo n : Nat) :
    cellsBelow cells lo (n + 1) = cellsBelow cells lo n + cells.countP fun c => c.1 == lo + n := by
  unfold cellsBelow
  induction cells with
  | nil => rfl
  | cons c t ih =>
    simp only [List.countP_cons, ih]
    by_cases h : c.1 = lo + n
    · simp [h]; omega
    · by_cases h' : lo ≤ c.1 ∧ c.1 < lo + n
      · have : lo ≤ c.1 ∧ c.1 < lo + (n + 1) := by omega
        simp [h, h', this]; omega
      · have : ¬ (lo ≤ c.1 ∧ c.1 < lo + (n + 1)) := by omega
        simp [h, h', this]

/-- `n` addresses in a row that all have a cell take `n` cells. -/
theorem le_cellsBelow (cells : List Host.Cell) (lo n : Nat) (h : ∀ i < n, ∃ c ∈ cells, c.1 = lo + i) : n ≤ cellsBelow cells lo n := by
  induction n with
  | zero => exact Nat.zero_le _
  | succ n ih =>
    obtain ⟨c, hc, he⟩ := h n (by omega)
    have : 0 < cells.countP fun c => c.1 == lo + n := List.countP_pos_iff.2 ⟨c, hc, by simp [he]⟩
    have := ih fun i hi => h i (by omega)
    rw [cellsBelow_succ]
    omega

/-- Fewer than 64 cells cover no line whole. -/
theorem wholeLines_small (cells : List Host.Cell) (h : cells.length < 64) : wholeLines cells = [] := by
  unfold wholeLines
  rw [List.filter_eq_nil_iff]
  intro l _ hall
  rw [List.all_eq_true] at hall
  have := le_cellsBelow cells (l * 64) 64 fun i hi => by
    obtain ⟨c, hc, he⟩ := List.any_eq_true.1 (hall i (List.mem_range.2 hi))
    exact ⟨c, hc, by simpa using he⟩
  have : cellsBelow cells (l * 64) 64 ≤ cells.length := List.countP_le_length
  omega

@[simp] theorem performCells_mem (s : State) (cells : List Host.Cell) : (s.performCells cells).mem = s.mem.writeCells cells := rfl

/-- Performing cells changes memory, poison marks, the duplicate filters and the copies in L1 caches, and nothing else. -/
theorem performCells_frame (s : State) (cells : List Host.Cell) :
    s.performCells cells = { s with mem := s.mem.writeCells cells, poisoned := (s.performCells cells).poisoned,
                                    filters := (s.performCells cells).filters, l1 := (s.performCells cells).l1 } := rfl

theorem performCells_poisoned (s : State) (cells : List Host.Cell) (l : Nat) (h : l ∈ (s.performCells cells).poisoned) :
    l ∈ s.poisoned := (List.mem_filter.1 h).1

/-- A store of fewer than 64 bytes clears no poison mark. -/
theorem performCells_small (s : State) (cells : List Host.Cell) (h : cells.length < 64) :
    (s.performCells cells).poisoned = s.poisoned := by
  show dropIf (fun l => (if s.poisoned.isEmpty then [] else wholeLines cells).contains l) s.poisoned = _
  rw [wholeLines_small cells h]
  simp [dropIf]

theorem performCells_read_other (s : State) (cells : List Host.Cell) (a : Nat) (h : ∀ c ∈ cells, c.1 ≠ a) :
    (s.performCells cells).mem.read a = s.mem.read a := Memory.read_writeCells_other _ _ _ h

theorem performCells_canonical (s : State) (cells : List Host.Cell) (h : s.canonical = true) :
    (s.performCells cells).canonical = true := Memory.wf_writeCells cells s.mem h

/-- A fold of steps that keep the canonical form keeps it. -/
theorem foldl_canonical {α : Type} (f : State → α → State) (hf : ∀ s x, s.canonical = true → (f s x).canonical = true)
    (l : List α) (s : State) (h : s.canonical = true) : (l.foldl f s).canonical = true := by
  induction l generalizing s with
  | nil => exact h
  | cons x t ih => exact ih _ (hf s x h)

/-! ### Stores and releases -/

theorem performOwn_canonical (s : State) (core : Nat) (cells : List Host.Cell) (h : s.canonical = true) :
    (s.performOwn core cells).canonical = true := Memory.wf_writeCells cells s.mem h

theorem performStore_canonical (s : State) (p : PendingStore) (h : s.canonical = true) : (s.performStore p).canonical = true := by
  unfold State.performStore
  cases p.replicated <;> exact performOwn_canonical s p.core p.cells h

theorem performIf_canonical (s : State) (f : PendingStore → Bool) (h : s.canonical = true) : (s.performIf f).canonical = true :=
  foldl_canonical _ performStore_canonical _ _ h

theorem release_canonical (s : State) (uid : Nat) (unordered : Bool) (h : s.canonical = true) :
    (s.release uid unordered).canonical = true := performIf_canonical _ _ h

theorem performOverlap_canonical (s : State) (uid : Nat) (keys : Nat → Bool) (h : s.canonical = true) :
    (s.performOverlap uid keys).canonical = true := by
  unfold State.performOverlap
  split
  · exact performIf_canonical _ _ h
  · exact h

/-- Performing a store adds nothing to the stores under way, and touches only memory, poison, the filters, the copies in L1 caches,
what the grids note of their code and the replica queue. -/
theorem performStore_frame (s : State) (p : PendingStore) :
    s.performStore p = { s with mem := (s.performStore p).mem, poisoned := (s.performStore p).poisoned,
                                filters := (s.performStore p).filters, l1 := (s.performStore p).l1,
                                grids := (s.performStore p).grids, drQueue := (s.performStore p).drQueue } := by
  unfold State.performStore
  cases p.replicated <;> rfl

theorem performStores_frame (l : List PendingStore) (s : State) :
    l.foldl State.performStore s =
      { s with mem := (l.foldl State.performStore s).mem, poisoned := (l.foldl State.performStore s).poisoned,
               filters := (l.foldl State.performStore s).filters, l1 := (l.foldl State.performStore s).l1,
               grids := (l.foldl State.performStore s).grids, drQueue := (l.foldl State.performStore s).drQueue } := by
  induction l generalizing s with
  | nil => rfl
  | cons p t ih =>
    rw [List.foldl_cons, ih]
    generalize (t.foldl State.performStore (s.performStore p)) = u
    rw [performStore_frame]

/-- What `performIf` can do: the selected stores are performed, and the rest of the machine stays. -/
theorem performIf_frame (s : State) (f : PendingStore → Bool) :
    s.performIf f = { s with mem := (s.performIf f).mem, poisoned := (s.performIf f).poisoned, filters := (s.performIf f).filters,
                             l1 := (s.performIf f).l1, grids := (s.performIf f).grids, drQueue := (s.performIf f).drQueue,
                             stores := dropIf f s.stores } := by
  unfold State.performIf
  rw [performStores_frame]

@[simp] theorem performIf_stores (s : State) (f : PendingStore → Bool) : (s.performIf f).stores = dropIf f s.stores := by
  rw [performIf_frame]

@[simp] theorem performIf_waves (s : State) (f : PendingStore → Bool) : (s.performIf f).waves = s.waves := by
  rw [performIf_frame]

@[simp] theorem release_waves (s : State) (uid : Nat) (u : Bool) : (s.release uid u).waves = s.waves := performIf_waves _ _

@[simp] theorem release_wave (s : State) (uid : Nat) (u : Bool) (k : Nat) : (s.release uid u).wave k = s.wave k := by
  unfold State.wave; rw [release_waves]

@[simp] theorem release_blocks (s : State) (uid : Nat) (u : Bool) : (s.release uid u).blocks = s.blocks := by
  unfold State.release; rw [performIf_frame]

@[simp] theorem release_cores (s : State) (uid : Nat) (u : Bool) : (s.release uid u).cores = s.cores := by
  unfold State.release; rw [performIf_frame]

@[simp] theorem release_units (s : State) (uid : Nat) (u : Bool) : (s.release uid u).units = s.units := by
  unfold State.release; rw [performIf_frame]

@[simp] theorem release_pavs (s : State) (uid : Nat) (u : Bool) : (s.release uid u).pavs = s.pavs := by
  unfold State.release; rw [performIf_frame]

@[simp] theorem release_fresh (s : State) (uid : Nat) (u : Bool) : (s.release uid u).fresh = s.fresh := by
  unfold State.release; rw [performIf_frame]

@[simp] theorem release_cur (s : State) (uid : Nat) (u : Bool) : (s.release uid u).cur = s.cur := by
  unfold State.release; rw [performIf_frame]

/-- An agent without stores under way releases nothing. -/
theorem release_none (s : State) (uid : Nat) (u : Bool) (h : ∀ p ∈ s.stores, p.agent ≠ uid) : s.release uid u = s := by
  have hf : ∀ all : Bool, ∀ p ∈ s.stores, (p.agent == uid && (all || !p.unordered)) = false := by
    intro all p hp
    simp [h p hp]
  unfold State.release State.performIf
  have h1 (all : Bool) : s.stores.filter (fun p => p.agent == uid && (all || !p.unordered)) = [] := by
    rw [List.filter_eq_nil_iff]; intro p hp; simp [hf all p hp]
  have h2 (all : Bool) : dropIf (fun p => p.agent == uid && (all || !p.unordered)) s.stores = s.stores := by
    unfold dropIf; rw [List.filter_eq_self]; intro p hp; simp [hf all p hp]
  simp only [h1, h2, List.foldl_nil]

theorem performStores_canonical (l : List PendingStore) (s : State) (h : s.canonical = true) :
    (l.foldl State.performStore s).canonical = true := foldl_canonical _ performStore_canonical l s h

theorem storeSpans_canonical (s : State) (who : Who) (sc : Bool) (l : List (Span × List Host.Cell)) (h : s.canonical = true) :
    (s.storeSpans who sc l).canonical = true := by
  refine foldl_canonical _ (fun s x h => ?_) l s h
  split
  · exact h
  · dsimp only
    split
    · exact performStores_canonical _ _ (performOverlap_canonical _ _ _ h)
    · exact h

/-- What the release and the acquire of a scope leave canonical. -/
theorem releaseAt_canonical (s : State) (who : Who) (scope : BitVec 3) (u : Bool) (h : s.canonical = true) :
    (s.releaseAt who scope u).canonical = true := by
  unfold State.releaseAt
  split
  · exact h
  · split
    · exact h
    · exact release_canonical _ _ _ h

theorem acquireAt_canonical (s : State) (who : Who) (scope : BitVec 3) (h : s.canonical = true) :
    (s.acquireAt who scope).canonical = true := by
  unfold State.acquireAt
  split
  · exact h
  · dsimp only
    split <;> split <;> exact performIf_canonical _ _ h

/-! ### Engines and the device's own stores -/

theorem settle_canonical (s : State) (l : List Span) (h : s.canonical = true) : (s.settle l).canonical = true := by
  unfold State.settle
  simp only
  split
  · exact foldl_canonical _ (fun s x h => performCells_canonical s x.2 h) _ _ h
  · exact h

theorem engineStore_canonical (s : State) (ctx : Nat) (l : List (Span × List Host.Cell)) (h : s.canonical = true) :
    (s.engineStore ctx l).canonical = true := by
  refine foldl_canonical _ (fun s x h => ?_) l s h
  split
  · exact h
  · split
    · exact performCells_canonical _ _ (performCells_canonical _ _ (settle_canonical _ _ h))
    · exact performCells_canonical _ _ h

theorem devWrite_canonical (s : State) (a n x : Nat) (h : s.canonical = true) : (s.devWrite a n x).canonical = true :=
  performCells_canonical _ _ h

theorem storeVa_canonical (s s' : State) (who : Who) (va : Nat) (bs : List Byte) (h : s.canonical = true)
    (hs : s.storeVa who va bs = some s') : s'.canonical = true := by
  unfold State.storeVa at hs
  split at hs
  · cases hs
  · split at hs
    · cases hs
    · cases hs
      exact engineStore_canonical _ _ _ (performOverlap_canonical _ _ _ h)

theorem poisonAt_canonical (s : State) (l : List Span) (bad : List Nat) (h : s.canonical = true) :
    (s.poisonAt l bad).canonical = true := by
  unfold State.poisonAt
  split <;> exact h

theorem poisonVa_canonical (s : State) (who : Who) (va : Nat) (bad : List Nat) (h : s.canonical = true) :
    (s.poisonVa who va bad).canonical = true := by
  unfold State.poisonVa
  split
  · exact h
  · split
    · exact h
    · exact poisonAt_canonical _ _ _ h

theorem saveImage_canonical (s s' : State) (k : Nat) (w : Wave) (area cause : Nat) (h : s.canonical = true)
    (hs : s.saveImage k w area cause = some s') : s'.canonical = true := by
  unfold State.saveImage at hs
  split at hs
  · cases hs
  · rename_i t ht
    exact storeVa_canonical _ s' _ _ _ (poisonVa_canonical _ _ _ _ (storeVa_canonical _ _ _ _ _ h ht)) hs

/-! ### Rings and events -/

theorem ringPost_canonical (s : State) (base size : Nat) (entry : List Byte) (h : s.canonical = true) :
    (s.ringPost base size entry).canonical = true := by
  unfold State.ringPost
  split
  · exact h
  · simp only
    split
    · exact devWrite_canonical _ _ _ _ (performCells_canonical _ _ h)
    · exact devWrite_canonical _ _ _ _ (devWrite_canonical _ _ _ _ h)

theorem pavEvent_canonical (s : State) (pav code ctx arg data : Nat) (h : s.canonical = true) :
    (s.pavEvent pav code ctx arg data).canonical = true := by
  unfold State.pavEvent
  simp only
  split
  · exact h
  · split
    · exact foldl_canonical (fun (t : State) v => t.emit (.msix v)) (fun _ _ h => h) _ _ (ringPost_canonical _ _ _ _ h)
    · exact ringPost_canonical _ _ _ _ h

theorem pfEvent_canonical (s : State) (code ctx arg data : Nat) (h : s.canonical = true) :
    (s.pfEvent code ctx arg data).canonical = true := by
  unfold State.pfEvent
  simp only
  split
  · exact h
  · split <;> exact ringPost_canonical _ _ _ _ h

theorem ingressFailure_canonical (s : State) (cause index pav ctx offset : Nat) (h : s.canonical = true) :
    (s.ingressFailure cause index pav ctx offset).canonical = true := by
  unfold State.ingressFailure
  simp only
  split
  · exact pfEvent_canonical _ _ _ _ _ h
  · exact pavEvent_canonical _ _ _ _ _ _ h

/-! ### Error records, termination and traps -/

theorem putError_canonical (s : State) (die n : Nat) (r : BitVec 256) (h : s.canonical = true) :
    (s.putError die n r).canonical = true := pfEvent_canonical _ _ _ _ _ h

theorem addError_canonical (s : State) (die source type loc ctx addr : Nat) (h : s.canonical = true) :
    (s.addError die source type loc ctx addr).canonical = true := by
  unfold State.addError
  simp only
  split
  · exact putError_canonical _ _ _ _ h
  · split
    · exact putError_canonical _ _ _ _ h
    · split
      · exact putError_canonical _ _ _ _ h
      · exact h

theorem count_canonical (s : State) (core pav ctx event n : Nat) (h : s.canonical = true) :
    (s.count core pav ctx event n).canonical = true := by
  unfold State.count
  split
  · simp only
    split <;> exact h
  · exact h

theorem disableQueue_canonical (s : State) (pav q : Nat) (h : s.canonical = true) : (s.disableQueue pav q).canonical = true := by
  unfold State.disableQueue
  split <;> exact h

theorem discardCtx_canonical (s : State) (pav ctx : Nat) (h : s.canonical = true) : (s.discardCtx pav ctx).canonical = true :=
  foldl_canonical _ (fun s q h => disableQueue_canonical s pav q h) _ _ h

theorem terminate_canonical (s : State) (pav ctx cause : Nat) (pc : DWord) (h : s.canonical = true) :
    (s.terminate pav ctx cause pc).canonical = true := pavEvent_canonical _ _ _ _ _ _ (discardCtx_canonical _ _ _ h)

theorem putPacket_canonical (s : State) (core : Nat) (pc : DWord) (slot kind : Nat) (h : s.canonical = true) :
    (s.putPacket core pc slot kind).canonical = true := by
  unfold State.putPacket
  simp only
  exact performCells_canonical _ _ h

theorem trace_canonical (s : State) (k pav ctx : Nat) (pc : DWord) (kind : Nat) (h : s.canonical = true) :
    (s.trace k pav ctx pc kind).canonical = true := by
  unfold State.trace
  simp only
  repeat' split
  all_goals first | exact h | exact putPacket_canonical _ _ _ _ _ h | exact putPacket_canonical _ _ _ _ _ (putPacket_canonical _ _ _ _ _ h)

theorem consumePoison_canonical (s : State) (core pav ctx source addr : Nat) (pc : DWord) (h : s.canonical = true) :
    (s.consumePoison core pav ctx source addr pc).canonical = true :=
  terminate_canonical _ _ _ _ _ (addError_canonical _ _ _ _ _ _ _ h)

theorem takeTrap_canonical (s : State) (k : Nat) (w : Wave) (t : TrapInfo) (tpc retpc : DWord) (past : Nat)
    (h : s.canonical = true) : (s.takeTrap k w t tpc retpc past).canonical = true := by
  unfold State.takeTrap
  simp only
  split
  · exact consumePoison_canonical _ _ _ _ _ _ _ h
  · split
    · exact h
    · split
      · exact terminate_canonical _ _ _ _ _ h
      · split
        · exact terminate_canonical _ _ _ _ _ h
        · rename_i u hu
          exact trace_canonical _ _ _ _ _ _ (show u.canonical = true from saveImage_canonical _ u _ _ _ _ h hu)

theorem raiseTrap_canonical (s : State) (k : Nat) (w : Wave) (t : TrapInfo) (h : s.canonical = true) :
    (s.raiseTrap k w t).canonical = true := by
  unfold State.raiseTrap
  split
  · exact takeTrap_canonical _ _ _ _ _ _ _ h
  · exact h

theorem returnFromTrap_canonical (s : State) (k : Nat) (w : Wave) (saved : SavedWave) (h : s.canonical = true) :
    (s.returnFromTrap k w saved).canonical = true := by
  unfold State.returnFromTrap
  simp only
  split
  · exact terminate_canonical _ _ _ _ _ h
  · exact takeTrap_canonical _ _ _ _ _ _ _ h
  · have := count_canonical _ (s.whoOf k w).core (s.whoOf k w).pav (s.whoOf k w).ctx 1 1
      (trace_canonical (s.setWave k ‹Wave›) k (s.whoOf k w).pav (s.whoOf k w).ctx (‹Wave› : Wave).pc 4 h)
    split
    · exact takeTrap_canonical _ _ _ _ _ _ _ this
    · exact this

/-! ### What stops an instruction -/

theorem faultWave_canonical (s : State) (k : Nat) (w : Wave) (i : Instr) (va : DWord) (kind : AccessKind) (lanes : Word)
    (spill : Bool) (h : s.canonical = true) : (s.faultWave k w i va kind lanes spill).canonical = true := by
  unfold State.faultWave
  simp only
  repeat' split
  all_goals first | exact raiseTrap_canonical _ _ _ _ h | exact h

theorem askGroup_canonical (s : State) (who : Who) (unit : FaultUnit) (asks : List Ask) (h : s.canonical = true) :
    (s.askGroup who unit asks).canonical = true := by
  unfold State.askGroup
  dsimp only
  split <;> exact h

theorem askPartner_canonical (s : State) (k : Nat) (w : Wave) (unit : FaultUnit) (asks : List Ask) (release : Option (BitVec 3))
    (h : s.canonical = true) : (s.askPartner k w unit asks release).canonical = true := by
  unfold State.askPartner
  cases release with
  | none => exact askGroup_canonical _ _ _ _ h
  | some scope => exact askGroup_canonical _ _ _ _ (releaseAt_canonical _ _ _ _ h)

/-- An instruction of a wave keeps memory canonical where its effect does: what stops it always does. -/
theorem issue_canonical (i : Instr) (s t : State) (effect : State → Wave → Run (State × Wave)) (h : s.canonical = true)
    (he : ∀ w s' w', effect s w = .ok (s', w') → s'.canonical = true) (ht : issue i s effect = .next t) : t.canonical = true := by
  unfold issue at ht
  split at ht
  · cases ht
  · simp only at ht
    split at ht
    · rename_i s' w' hok
      have := he _ _ _ hok
      split at ht
      · cases ht; exact this
      · cases ht; split <;> exact this
    · cases ht; exact raiseTrap_canonical _ _ _ _ h
    · cases ht; exact h
    · cases ht; exact faultWave_canonical _ _ _ _ _ _ _ _ h
    · cases ht; exact askPartner_canonical _ _ _ _ _ _ h

/-- An instruction that reads and writes only its own wave keeps memory canonical. -/
theorem issueOwn_canonical (i : Instr) (s t : State) (effect : Wave → Run Wave) (h : s.canonical = true)
    (ht : issueOwn i s effect = .next t) : t.canonical = true := by
  refine issue_canonical i s t _ h (fun w s' w' he => ?_) ht
  revert he
  cases effect w with
  | error e => intro he; cases he
  | ok v => intro he; cases he; exact h

/-- A trap handler starts with no entry open and the pc at the context's handler, or the wave is gone or halted: all that
taking a trap can leave in the wave's slot when it does not end the context. -/
theorem takeTrap_handled (s s₁ : State) (k : Nat) (w : Wave) (t : TrapInfo) (tpc retpc : DWord) (past : Nat)
    (hp : t.cause ≠ .poison) (hq : s.descPoison (s.whoOf k w).pav (s.whoOf k w).ctx = none)
    (hd : ((decide (t.cause = .breakpoint) || decide (t.cause = .step) || decide (t.cause = .watchpoint))
      && s.attached (s.whoOf k w).core (s.whoOf k w).pav (s.whoOf k w).ctx) = false)
    (hh : ¬ (s.ctxField (s.whoOf k w).pav (s.whoOf k w).ctx 124 1 / 8 % 2 = 1 ∨ w.handler.isSome
      ∨ s.ctxField (s.whoOf k w).pav (s.whoOf k w).ctx 120 4 / 2 ^ t.cause.code % 2 = 0))
    (w' : Wave) (hw : w' = { w with
      wsCause := BitVec.ofNat 8 t.cause.code, wsPast := BitVec.ofNat 8 past, trapCause := BitVec.ofNat 8 t.cause.code,
      trapPc := tpc, trapLanes := t.lanes, trapAddr := t.addr, pc := retpc, owed := [], wait := .none,
      heldTrap := none, answers := [], watchHit := none, skipBreak := false, mxCheck := if t.cause = .mxCheck then none else w.mxCheck })
    (hs : s.saveImage k w' (s.saveArea (s.whoOf k w).pav (s.whoOf k w).ctx k) t.cause.code = some s₁) :
    s.takeTrap k w t tpc retpc past =
      (s₁.setWave k (handlerWave w' (s.saveArea (s.whoOf k w).pav (s.whoOf k w).ctx k)
        (BitVec.ofNat 64 (s.ctxField (s.whoOf k w).pav (s.whoOf k w).ctx 112 8))
        (decide (s.ctxField (s.whoOf k w).pav (s.whoOf k w).ctx 124 1 / 4 % 2 = 1)) t.cause.code)).trace k
        (s.whoOf k w).pav (s.whoOf k w).ctx (BitVec.ofNat 64 (s.ctxField (s.whoOf k w).pav (s.whoOf k w).ctx 112 8)) 3 := by
  subst hw
  unfold State.takeTrap
  simp only [hq, hp, Option.isSome_none, Bool.false_eq_true, or_self, if_false]
  rw [if_neg (by intro hc; obtain ⟨h1, h2⟩ := hc; rw [h1, h2] at hd; exact absurd hd (by decide))]
  rw [if_neg hh]
  simp only [hs]

/-! ### What a load and a fetch may see of the launch (R72, R84) -/

/-- Outside the pages that the L1 serves a load reads its own store under way, else what memory holds. -/
theorem readByte_uncached (s : State) (core : Nat) (w : Wave) (x : Span) (k : Nat) (h : x.cached = false) :
    s.readByte core w x k = s.loadByte w.uid k := by
  unfold State.readByte State.loadByte
  simp [h]

/-- A byte that a load reads of a cached page without the read-only hint: the wave's own store under way, the copy of its core's
L1, or what memory holds. -/
theorem readByte_cases (s : State) (core : Nat) (w : Wave) (x : Span) (k : Nat) (h : wmCH w.wm ≠ 2) :
    s.readByte core w x k = s.loadByte w.uid k ∨ s.readByte core w x k = s.l1Byte core k := by
  unfold State.readByte State.loadByte
  cases hn : newestStore w.uid k s.stores with
  | some b => exact .inl rfl
  | none =>
    cases hc : x.cached with
    | false => exact .inl rfl
    | true => exact .inr (if_pos h)

/-- A core whose L1 holds nothing of a line reads it from memory. -/
theorem l1Byte_absent (s : State) (core k : Nat) (h : s.l1Line core (k / 64) = none) : s.l1Byte core k = s.mem.read k := by
  unfold State.l1Byte
  rw [h]

/-- Where the launch found the same word, a fetch gives the word that memory holds. -/
theorem codeWord_unchanged (s : State) (w : Wave) (l : List Span)
    (h : ∀ m, s.launchMemory w = some m → ({ s with mem := m } : State).homeBytes l = s.homeBytes l) :
    s.codeWord w l = BitVec.ofNat 32 (leNat (s.homeBytes l)) := by
  unfold State.codeWord
  dsimp only
  cases hm : s.launchMemory w with
  | none => rfl
  | some m => simp [h m hm]

end Sys2Proof.Machine
end

