-- ==== Sys2Proof/Laws/PerInstr.lean ====
section
/-! SUPPORT. What is said per instruction. Family `Encoding`: the word that encodes a well-formed instruction decodes to it, by
the decoder of its own set, with every operand at every value. -/

namespace Sys2Proof.Laws.Encoding

/-- The decoder of its set reads an instruction's word as that instruction. -/
def Statement (i : Instr) : Prop := i.WellFormed → ∀ w, encode i = some w → decoderOf i w = .ok i

/-- The statement of a wave instruction from its word. -/
theorem gyrix_of {i : Instr} {w₀ : Word} (he : encode i = some w₀) (ht : isTraversal i = false)
    (h : i.WellFormed → decodeGyrix w₀ = .ok i) : Statement i := by
  intro hi w hw
  rw [he] at hw
  obtain rfl := Option.some.inj hw
  rw [decoderOf, ht]
  exact h hi

/-- The statement of a traversal instruction from its word. -/
theorem gts_of {i : Instr} {w₀ : Word} (he : encode i = some w₀) (ht : isTraversal i = true)
    (h : i.WellFormed → decodeGts w₀ = .ok i) : Statement i := by
  intro hi w hw
  rw [he] at hw
  obtain rfl := Option.some.inj hw
  rw [decoderOf, ht]
  exact h hi

/-- A step or event of the device has no word. -/
theorem statement_none {i : Instr} (he : encode i = none) : Statement i := fun _ _ hw => nomatch he.symm.trans hw

theorem nop : Statement (.nop) :=
  gyrix_of (w₀ := formA 0x00#8 0#8 0#8 0#8) rfl rfl fun _ => by simp [decodeGyrix, decodeRow0]
theorem model (i) : Statement (.model i) :=
  gyrix_of (w₀ := formC 0x01#8 0#8 i) rfl rfl fun _ => by simp [decodeGyrix, decodeRow0]
theorem modeh (i) : Statement (.modeh i) :=
  gyrix_of (w₀ := formC 0x02#8 0#8 (0#8 ++ i)) rfl rfl fun _ => by simp [decodeGyrix, decodeRow0]
theorem modev (x) : Statement (.modev x) :=
  gyrix_of (w₀ := formA 0x03#8 0#8 x 0#8) rfl rfl fun _ => by simp [decodeGyrix, decodeRow0]
theorem getsr (x i) : Statement (.getsr x i) :=
  gyrix_of (w₀ := formC 0x04#8 x i) rfl rfl fun _ => by simp [decodeGyrix, decodeRow0]
theorem setsr (x i) : Statement (.setsr x i) :=
  gyrix_of (w₀ := formC 0x05#8 x i) rfl rfl fun _ => by simp [decodeGyrix, decodeRow0]
theorem ldi (x i) : Statement (.ldi x i) :=
  gyrix_of (w₀ := formC 0x06#8 x i) rfl rfl fun _ => by simp [decodeGyrix, decodeRow0]
theorem ldih (x i) : Statement (.ldih x i) :=
  gyrix_of (w₀ := formC 0x07#8 x i) rfl rfl fun _ => by simp [decodeGyrix, decodeRow0]
theorem pcrel (x i) : Statement (.pcrel x i) :=
  gyrix_of (w₀ := formC 0x08#8 (pairField x) i) rfl rfl fun _ => by simp [decodeGyrix, decodeRow0]
theorem cbase (x i) : Statement (.cbase x i) :=
  gyrix_of (w₀ := formC 0x09#8 (pairField x) i) rfl rfl fun _ => by simp [decodeGyrix, decodeRow0]
theorem mov (x y) : Statement (.mov x y) :=
  gyrix_of (w₀ := formA 0x0A#8 x y 0#8) rfl rfl fun _ => by simp [decodeGyrix, decodeRow0]
theorem sel (x y z) : Statement (.sel x y z) :=
  gyrix_of (w₀ := formA 0x0B#8 x y z) rfl rfl fun _ => by simp [decodeGyrix, decodeRow0]
theorem add (x y z) : Statement (.add x y z) :=
  gyrix_of (w₀ := formA 0x10#8 x y z) rfl rfl fun _ => by simp [decodeGyrix, decodeRow1]
theorem sub (x y z) : Statement (.sub x y z) :=
  gyrix_of (w₀ := formA 0x11#8 x y z) rfl rfl fun _ => by simp [decodeGyrix, decodeRow1]
theorem mul (x y z) : Statement (.mul x y z) :=
  gyrix_of (w₀ := formA 0x12#8 x y z) rfl rfl fun _ => by simp [decodeGyrix, decodeRow1]
theorem mulh (x y z) : Statement (.mulh x y z) :=
  gyrix_of (w₀ := formA 0x13#8 x y z) rfl rfl fun _ => by simp [decodeGyrix, decodeRow1]
theorem mad (x y z) : Statement (.mad x y z) :=
  gyrix_of (w₀ := formA 0x14#8 x y z) rfl rfl fun _ => by simp [decodeGyrix, decodeRow1]
theorem min (x y z) : Statement (.min x y z) :=
  gyrix_of (w₀ := formA 0x15#8 x y z) rfl rfl fun _ => by simp [decodeGyrix, decodeRow1]
theorem max (x y z) : Statement (.max x y z) :=
  gyrix_of (w₀ := formA 0x16#8 x y z) rfl rfl fun _ => by simp [decodeGyrix, decodeRow1]
theorem abs (x y) : Statement (.abs x y) :=
  gyrix_of (w₀ := formA 0x17#8 x y 0#8) rfl rfl fun _ => by simp [decodeGyrix, decodeRow1]
theorem neg (x y) : Statement (.neg x y) :=
  gyrix_of (w₀ := formA 0x18#8 x y 0#8) rfl rfl fun _ => by simp [decodeGyrix, decodeRow1]
theorem and (x y z) : Statement (.and x y z) :=
  gyrix_of (w₀ := formA 0x19#8 x y z) rfl rfl fun _ => by simp [decodeGyrix, decodeRow1]
theorem or (x y z) : Statement (.or x y z) :=
  gyrix_of (w₀ := formA 0x1A#8 x y z) rfl rfl fun _ => by simp [decodeGyrix, decodeRow1]
theorem xor (x y z) : Statement (.xor x y z) :=
  gyrix_of (w₀ := formA 0x1B#8 x y z) rfl rfl fun _ => by simp [decodeGyrix, decodeRow1]
theorem not (x y) : Statement (.not x y) :=
  gyrix_of (w₀ := formA 0x1C#8 x y 0#8) rfl rfl fun _ => by simp [decodeGyrix, decodeRow1]
theorem shl (x y z) : Statement (.shl x y z) :=
  gyrix_of (w₀ := formA 0x1D#8 x y z) rfl rfl fun _ => by simp [decodeGyrix, decodeRow1]
theorem shr (x y z) : Statement (.shr x y z) :=
  gyrix_of (w₀ := formA 0x1E#8 x y z) rfl rfl fun _ => by simp [decodeGyrix, decodeRow1]
theorem clz (x y) : Statement (.clz x y) :=
  gyrix_of (w₀ := formA 0x1F#8 x y 0#8) rfl rfl fun _ => by simp [decodeGyrix, decodeRow1]
theorem popc (x y) : Statement (.popc x y) :=
  gyrix_of (w₀ := formA 0x20#8 x y 0#8) rfl rfl fun _ => by simp [decodeGyrix, decodeRow2]
theorem bfe (x y z) : Statement (.bfe x y z) :=
  gyrix_of (w₀ := formA 0x21#8 x y z) rfl rfl fun _ => by simp [decodeGyrix, decodeRow2]
theorem bfi (x y z) : Statement (.bfi x y z) :=
  gyrix_of (w₀ := formA 0x22#8 x y z) rfl rfl fun _ => by simp [decodeGyrix, decodeRow2]
theorem addi (x y z) : Statement (.addi x y z) :=
  gyrix_of (w₀ := formA 0x23#8 x y z) rfl rfl fun _ => by simp [decodeGyrix, decodeRow2]
theorem shli (x y z) : Statement (.shli x y z) :=
  gyrix_of (w₀ := formA 0x24#8 x y (immField z)) rfl rfl fun _ => by simp [decodeGyrix, decodeRow2]
theorem shri (x y z) : Statement (.shri x y z) :=
  gyrix_of (w₀ := formA 0x25#8 x y (immField z)) rfl rfl fun _ => by simp [decodeGyrix, decodeRow2]
theorem andi (x y z) : Statement (.andi x y z) :=
  gyrix_of (w₀ := formA 0x26#8 x y z) rfl rfl fun _ => by simp [decodeGyrix, decodeRow2]
theorem muli (x y z) : Statement (.muli x y z) :=
  gyrix_of (w₀ := formA 0x27#8 x y z) rfl rfl fun _ => by simp [decodeGyrix, decodeRow2]
theorem adda (x y z) : Statement (.adda x y z) :=
  gyrix_of (w₀ := formA 0x28#8 (pairField x) (pairField y) z) rfl rfl fun _ => by simp [decodeGyrix, decodeRow2]
theorem lea2 (x y z) : Statement (.lea2 x y z) :=
  gyrix_of (w₀ := formA 0x29#8 (pairField x) (pairField y) z) rfl rfl fun _ => by simp [decodeGyrix, decodeRow2]
theorem lea4 (x y z) : Statement (.lea4 x y z) :=
  gyrix_of (w₀ := formA 0x2A#8 (pairField x) (pairField y) z) rfl rfl fun _ => by simp [decodeGyrix, decodeRow2]
theorem lea8 (x y z) : Statement (.lea8 x y z) :=
  gyrix_of (w₀ := formA 0x2B#8 (pairField x) (pairField y) z) rfl rfl fun _ => by simp [decodeGyrix, decodeRow2]
theorem suba (x y z) : Statement (.suba x y z) :=
  gyrix_of (w₀ := formA 0x2C#8 x (pairField y) (pairField z)) rfl rfl fun _ => by simp [decodeGyrix, decodeRow2]
theorem cmpeq (x y z) : Statement (.cmpeq x y z) :=
  gyrix_of (w₀ := formA 0x40#8 (predField x) y z) rfl rfl fun _ => by simp [decodeGyrix, decodeRow4]
theorem cmpne (x y z) : Statement (.cmpne x y z) :=
  gyrix_of (w₀ := formA 0x41#8 (predField x) y z) rfl rfl fun _ => by simp [decodeGyrix, decodeRow4]
theorem cmplt (x y z) : Statement (.cmplt x y z) :=
  gyrix_of (w₀ := formA 0x42#8 (predField x) y z) rfl rfl fun _ => by simp [decodeGyrix, decodeRow4]
theorem cmple (x y z) : Statement (.cmple x y z) :=
  gyrix_of (w₀ := formA 0x43#8 (predField x) y z) rfl rfl fun _ => by simp [decodeGyrix, decodeRow4]
theorem cmpgt (x y z) : Statement (.cmpgt x y z) :=
  gyrix_of (w₀ := formA 0x44#8 (predField x) y z) rfl rfl fun _ => by simp [decodeGyrix, decodeRow4]
theorem cmpge (x y z) : Statement (.cmpge x y z) :=
  gyrix_of (w₀ := formA 0x45#8 (predField x) y z) rfl rfl fun _ => by simp [decodeGyrix, decodeRow4]
theorem cmpun (x y z) : Statement (.cmpun x y z) :=
  gyrix_of (w₀ := formA 0x46#8 (predField x) y z) rfl rfl fun _ => by simp [decodeGyrix, decodeRow4]
theorem pand (x y z) : Statement (.pand x y z) :=
  gyrix_of (w₀ := formA 0x47#8 (predField x) (predField y) (predField z)) rfl rfl fun _ => by simp [decodeGyrix, decodeRow4]
theorem por (x y z) : Statement (.por x y z) :=
  gyrix_of (w₀ := formA 0x48#8 (predField x) (predField y) (predField z)) rfl rfl fun _ => by simp [decodeGyrix, decodeRow4]
theorem pxor (x y z) : Statement (.pxor x y z) :=
  gyrix_of (w₀ := formA 0x49#8 (predField x) (predField y) (predField z)) rfl rfl fun _ => by simp [decodeGyrix, decodeRow4]
theorem pnot (x y) : Statement (.pnot x y) :=
  gyrix_of (w₀ := formA 0x4A#8 (predField x) (predField y) 0#8) rfl rfl fun _ => by simp [decodeGyrix, decodeRow4]
theorem ballot (x y) : Statement (.ballot x y) :=
  gyrix_of (w₀ := formA 0x4B#8 x (predField y) 0#8) rfl rfl fun _ => by simp [decodeGyrix, decodeRow4]
theorem pfrom (x y) : Statement (.pfrom x y) :=
  gyrix_of (w₀ := formA 0x4C#8 (predField x) y 0#8) rfl rfl fun _ => by simp [decodeGyrix, decodeRow4]
theorem shape (x y) : Statement (.shape x y) :=
  gyrix_of (w₀ := formA 0x4D#8 x y 0#8) rfl rfl fun _ => by simp [decodeGyrix, decodeRow4]
theorem expand (x y) : Statement (.expand x y) :=
  gyrix_of (w₀ := formA 0x4E#8 x y 0#8) rfl rfl fun _ => by simp [decodeGyrix, decodeRow4]
theorem laneid (x) : Statement (.laneid x) :=
  gyrix_of (w₀ := formA 0x4F#8 x 0#8 0#8) rfl rfl fun _ => by simp [decodeGyrix, decodeRow4]
theorem readlane (x y z) : Statement (.readlane x y z) :=
  gyrix_of (w₀ := formA 0x50#8 x y z) rfl rfl fun _ => by simp [decodeGyrix, decodeRow5]
theorem shfl (x y z) : Statement (.shfl x y z) :=
  gyrix_of (w₀ := formA 0x51#8 x y z) rfl rfl fun _ => by simp [decodeGyrix, decodeRow5]
theorem shflup (x y z) : Statement (.shflup x y z) :=
  gyrix_of (w₀ := formA 0x52#8 x y (immField z)) rfl rfl fun _ => by simp [decodeGyrix, decodeRow5]
theorem shfldn (x y z) : Statement (.shfldn x y z) :=
  gyrix_of (w₀ := formA 0x53#8 x y (immField z)) rfl rfl fun _ => by simp [decodeGyrix, decodeRow5]
theorem shflx (x y z) : Statement (.shflx x y z) :=
  gyrix_of (w₀ := formA 0x54#8 x y (immField z)) rfl rfl fun _ => by simp [decodeGyrix, decodeRow5]
theorem vconflict (x y) : Statement (.vconflict x y) :=
  gyrix_of (w₀ := formA 0x55#8 x y 0#8) rfl rfl fun _ => by simp [decodeGyrix, decodeRow5]
theorem scanadd (x y) : Statement (.scanadd x y) :=
  gyrix_of (w₀ := formA 0x56#8 x y 0#8) rfl rfl fun _ => by simp [decodeGyrix, decodeRow5]
theorem redadd (x y) : Statement (.redadd x y) :=
  gyrix_of (w₀ := formA 0x57#8 x y 0#8) rfl rfl fun _ => by simp [decodeGyrix, decodeRow5]
theorem redmin (x y) : Statement (.redmin x y) :=
  gyrix_of (w₀ := formA 0x58#8 x y 0#8) rfl rfl fun _ => by simp [decodeGyrix, decodeRow5]
theorem redmax (x y) : Statement (.redmax x y) :=
  gyrix_of (w₀ := formA 0x59#8 x y 0#8) rfl rfl fun _ => by simp [decodeGyrix, decodeRow5]
theorem compact (x y) : Statement (.compact x y) :=
  gyrix_of (w₀ := formA 0x5A#8 x y 0#8) rfl rfl fun _ => by simp [decodeGyrix, decodeRow5]
theorem fadd (x y z) : Statement (.fadd x y z) :=
  gyrix_of (w₀ := formA 0x60#8 x y z) rfl rfl fun _ => by simp [decodeGyrix, decodeRow6]
theorem fsub (x y z) : Statement (.fsub x y z) :=
  gyrix_of (w₀ := formA 0x61#8 x y z) rfl rfl fun _ => by simp [decodeGyrix, decodeRow6]
theorem fmul (x y z) : Statement (.fmul x y z) :=
  gyrix_of (w₀ := formA 0x62#8 x y z) rfl rfl fun _ => by simp [decodeGyrix, decodeRow6]
theorem fma (x y z) : Statement (.fma x y z) :=
  gyrix_of (w₀ := formA 0x63#8 x y z) rfl rfl fun _ => by simp [decodeGyrix, decodeRow6]
theorem fmin (x y z) : Statement (.fmin x y z) :=
  gyrix_of (w₀ := formA 0x64#8 x y z) rfl rfl fun _ => by simp [decodeGyrix, decodeRow6]
theorem fmax (x y z) : Statement (.fmax x y z) :=
  gyrix_of (w₀ := formA 0x65#8 x y z) rfl rfl fun _ => by simp [decodeGyrix, decodeRow6]
theorem fabs (x y) : Statement (.fabs x y) :=
  gyrix_of (w₀ := formA 0x66#8 x y 0#8) rfl rfl fun _ => by simp [decodeGyrix, decodeRow6]
theorem fneg (x y) : Statement (.fneg x y) :=
  gyrix_of (w₀ := formA 0x67#8 x y 0#8) rfl rfl fun _ => by simp [decodeGyrix, decodeRow6]
theorem frcp (x y) : Statement (.frcp x y) :=
  gyrix_of (w₀ := formA 0x68#8 x y 0#8) rfl rfl fun _ => by simp [decodeGyrix, decodeRow6]
theorem frsq (x y) : Statement (.frsq x y) :=
  gyrix_of (w₀ := formA 0x69#8 x y 0#8) rfl rfl fun _ => by simp [decodeGyrix, decodeRow6]
theorem fsqrt (x y) : Statement (.fsqrt x y) :=
  gyrix_of (w₀ := formA 0x6A#8 x y 0#8) rfl rfl fun _ => by simp [decodeGyrix, decodeRow6]
theorem fexp2 (x y) : Statement (.fexp2 x y) :=
  gyrix_of (w₀ := formA 0x6B#8 x y 0#8) rfl rfl fun _ => by simp [decodeGyrix, decodeRow6]
theorem flog2 (x y) : Statement (.flog2 x y) :=
  gyrix_of (w₀ := formA 0x6C#8 x y 0#8) rfl rfl fun _ => by simp [decodeGyrix, decodeRow6]
theorem fsinpi (x y) : Statement (.fsinpi x y) :=
  gyrix_of (w₀ := formA 0x6D#8 x y 0#8) rfl rfl fun _ => by simp [decodeGyrix, decodeRow6]
theorem fcospi (x y) : Statement (.fcospi x y) :=
  gyrix_of (w₀ := formA 0x6E#8 x y 0#8) rfl rfl fun _ => by simp [decodeGyrix, decodeRow6]
theorem frnd (x y) : Statement (.frnd x y) :=
  gyrix_of (w₀ := formA 0x6F#8 x y 0#8) rfl rfl fun _ => by simp [decodeGyrix, decodeRow6]
theorem fclass (x y) : Statement (.fclass x y) :=
  gyrix_of (w₀ := formA 0x70#8 x y 0#8) rfl rfl fun _ => by simp [decodeGyrix, decodeRow7]
theorem fdot2 (x y z) : Statement (.fdot2 x y z) :=
  gyrix_of (w₀ := formA 0x71#8 x y z) rfl rfl fun _ => by simp [decodeGyrix, decodeRow7]
theorem cvt (x y) : Statement (.cvt x y) :=
  gyrix_of (w₀ := formA 0x72#8 x y 0#8) rfl rfl fun _ => by simp [decodeGyrix, decodeRow7]
theorem pack (x y z) : Statement (.pack x y z) :=
  gyrix_of (w₀ := formA 0x73#8 x y z) rfl rfl fun _ => by simp [decodeGyrix, decodeRow7]
theorem unpk (x y z) : Statement (.unpk x y z) :=
  gyrix_of (w₀ := formA 0x74#8 x y (immField z)) rfl rfl fun _ => by simp [decodeGyrix, decodeRow7]
theorem fdiv (x y z) : Statement (.fdiv x y z) :=
  gyrix_of (w₀ := formA 0x75#8 x y z) rfl rfl fun _ => by simp [decodeGyrix, decodeRow7]
theorem bra (o) : Statement (.bra o) :=
  gyrix_of (w₀ := formD 0x80#8 o) rfl rfl fun _ => by simp [decodeGyrix, decodeRow8]
theorem brc (o) : Statement (.brc o) :=
  gyrix_of (w₀ := formD 0x81#8 o) rfl rfl fun _ => by simp [decodeGyrix, decodeRow8]
theorem brca (o) : Statement (.brca o) :=
  gyrix_of (w₀ := formD 0x82#8 o) rfl rfl fun _ => by simp [decodeGyrix, decodeRow8]
theorem call (o) : Statement (.call o) :=
  gyrix_of (w₀ := formD 0x83#8 o) rfl rfl fun _ => by simp [decodeGyrix, decodeRow8]
theorem callr (x) : Statement (.callr x) :=
  gyrix_of (w₀ := formA 0x84#8 0#8 (pairField x) 0#8) rfl rfl fun _ => by simp [decodeGyrix, decodeRow8]
theorem ret : Statement (.ret) :=
  gyrix_of (w₀ := formA 0x85#8 0#8 0#8 0#8) rfl rfl fun _ => by simp [decodeGyrix, decodeRow8]
theorem jmpr (x) : Statement (.jmpr x) :=
  gyrix_of (w₀ := formA 0x86#8 0#8 (pairField x) 0#8) rfl rfl fun _ => by simp [decodeGyrix, decodeRow8]
theorem ifLanes (o) : Statement (.ifLanes o) :=
  gyrix_of (w₀ := formD 0x87#8 o) rfl rfl fun _ => by simp [decodeGyrix, decodeRow8]
theorem elseLanes (o) : Statement (.elseLanes o) :=
  gyrix_of (w₀ := formD 0x88#8 o) rfl rfl fun _ => by simp [decodeGyrix, decodeRow8]
theorem endIf : Statement (.endIf) :=
  gyrix_of (w₀ := formA 0x89#8 0#8 0#8 0#8) rfl rfl fun _ => by simp [decodeGyrix, decodeRow8]
theorem loopLanes (o) : Statement (.loopLanes o) :=
  gyrix_of (w₀ := formD 0x8A#8 o) rfl rfl fun _ => by simp [decodeGyrix, decodeRow8]
theorem breakLanes (o) : Statement (.breakLanes o) :=
  gyrix_of (w₀ := formD 0x8B#8 o) rfl rfl fun _ => by simp [decodeGyrix, decodeRow8]
theorem contLanes (o) : Statement (.contLanes o) :=
  gyrix_of (w₀ := formD 0x8C#8 o) rfl rfl fun _ => by simp [decodeGyrix, decodeRow8]
theorem endLoop (o) : Statement (.endLoop o) :=
  gyrix_of (w₀ := formD 0x8D#8 o) rfl rfl fun _ => by simp [decodeGyrix, decodeRow8]
theorem exit : Statement (.exit) :=
  gyrix_of (w₀ := formA 0x8E#8 0#8 0#8 0#8) rfl rfl fun _ => by simp [decodeGyrix, decodeRow8]
theorem trig : Statement (.trig) :=
  gyrix_of (w₀ := formA 0x8F#8 0#8 0#8 0#8) rfl rfl fun _ => by simp [decodeGyrix, decodeRow8]
theorem spawn (x y) : Statement (.spawn x y) :=
  gyrix_of (w₀ := formA 0x90#8 0#8 (pairField x) y) rfl rfl fun _ => by simp [decodeGyrix, decodeRow9]
theorem suspend (x) : Statement (.suspend x) :=
  gyrix_of (w₀ := formA 0x91#8 0#8 (pairField x) 0#8) rfl rfl fun _ => by simp [decodeGyrix, decodeRow9]
theorem join (x) : Statement (.join x) :=
  gyrix_of (w₀ := formA 0x92#8 0#8 (pairField x) 0#8) rfl rfl fun _ => by simp [decodeGyrix, decodeRow9]
theorem deq (x y) : Statement (.deq x y) :=
  gyrix_of (w₀ := formA 0x93#8 x y 0#8) rfl rfl fun h => by simp [decodeGyrix, decodeRow9, checked_ok _ h]
theorem enq (x y z) : Statement (.enq x y z) :=
  gyrix_of (w₀ := formA 0x94#8 x (pairField y) z) rfl rfl fun _ => by simp [decodeGyrix, decodeRow9]
theorem yield : Statement (.yield) :=
  gyrix_of (w₀ := formA 0x95#8 0#8 0#8 0#8) rfl rfl fun _ => by simp [decodeGyrix, decodeRow9]
theorem bar (i) : Statement (.bar i) :=
  gyrix_of (w₀ := formC 0x96#8 0#8 (0#8 ++ immField i)) rfl rfl fun _ => by simp [decodeGyrix, decodeRow9]
theorem ld (x y z) : Statement (.ld x y z) :=
  gyrix_of (w₀ := formA 0xA0#8 x (pairField y) z) rfl rfl fun _ => by simp [decodeGyrix, decodeRowA]
theorem ldx (x y z) : Statement (.ldx x y z) :=
  gyrix_of (w₀ := formA 0xA1#8 x (pairField y) z) rfl rfl fun _ => by simp [decodeGyrix, decodeRowA]
theorem st (x y z) : Statement (.st x y z) :=
  gyrix_of (w₀ := formA 0xA2#8 x (pairField y) z) rfl rfl fun _ => by simp [decodeGyrix, decodeRowA]
theorem stx (x y z) : Statement (.stx x y z) :=
  gyrix_of (w₀ := formA 0xA3#8 x (pairField y) z) rfl rfl fun _ => by simp [decodeGyrix, decodeRowA]
theorem lds (x y z) : Statement (.lds x y z) :=
  gyrix_of (w₀ := formA 0xA4#8 x y z) rfl rfl fun _ => by simp [decodeGyrix, decodeRowA]
theorem sts (x y z) : Statement (.sts x y z) :=
  gyrix_of (w₀ := formA 0xA5#8 x y z) rfl rfl fun _ => by simp [decodeGyrix, decodeRowA]
theorem pref (x y) : Statement (.pref x y) :=
  gyrix_of (w₀ := formA 0xA6#8 0#8 (pairField x) y) rfl rfl fun _ => by simp [decodeGyrix, decodeRowA]
theorem ldz (x y z) : Statement (.ldz x y z) :=
  gyrix_of (w₀ := formA 0xA7#8 x (pairField y) z) rfl rfl fun _ => by simp [decodeGyrix, decodeRowA]
theorem stz (x y z) : Statement (.stz x y z) :=
  gyrix_of (w₀ := formA 0xA8#8 x (pairField y) z) rfl rfl fun _ => by simp [decodeGyrix, decodeRowA]
theorem aadd (x y z) : Statement (.aadd x y z) :=
  gyrix_of (w₀ := formA 0xA9#8 x (pairField y) z) rfl rfl fun _ => by simp [decodeGyrix, decodeRowA]
theorem amin (x y z) : Statement (.amin x y z) :=
  gyrix_of (w₀ := formA 0xAA#8 x (pairField y) z) rfl rfl fun _ => by simp [decodeGyrix, decodeRowA]
theorem amax (x y z) : Statement (.amax x y z) :=
  gyrix_of (w₀ := formA 0xAB#8 x (pairField y) z) rfl rfl fun _ => by simp [decodeGyrix, decodeRowA]
theorem aand (x y z) : Statement (.aand x y z) :=
  gyrix_of (w₀ := formA 0xAC#8 x (pairField y) z) rfl rfl fun _ => by simp [decodeGyrix, decodeRowA]
theorem aor (x y z) : Statement (.aor x y z) :=
  gyrix_of (w₀ := formA 0xAD#8 x (pairField y) z) rfl rfl fun _ => by simp [decodeGyrix, decodeRowA]
theorem axor (x y z) : Statement (.axor x y z) :=
  gyrix_of (w₀ := formA 0xAE#8 x (pairField y) z) rfl rfl fun _ => by simp [decodeGyrix, decodeRowA]
theorem axchg (x y z) : Statement (.axchg x y z) :=
  gyrix_of (w₀ := formA 0xAF#8 x (pairField y) z) rfl rfl fun _ => by simp [decodeGyrix, decodeRowA]
theorem acas (x y z) : Statement (.acas x y z) :=
  gyrix_of (w₀ := formA 0xB0#8 x (pairField y) z) rfl rfl fun _ => by simp [decodeGyrix, decodeRowB]
theorem fence (o s e u) : Statement (.fence o s e u) :=
  gyrix_of (w₀ := formC 0xB2#8 0#8 (0#8 ++ (bit u ++ bit e ++ s ++ o))) rfl rfl fun h => by simp [decodeGyrix, decodeRowB, checked_ok _ h]
theorem publish (x) : Statement (.publish x) :=
  gyrix_of (w₀ := formA 0xB3#8 0#8 (pairField x) 0#8) rfl rfl fun _ => by simp [decodeGyrix, decodeRowB]
theorem arrive (x y) : Statement (.arrive x y) :=
  gyrix_of (w₀ := formA 0xB4#8 x y 0#8) rfl rfl fun _ => by simp [decodeGyrix, decodeRowB]
theorem arrivetx (x y z) : Statement (.arrivetx x y z) :=
  gyrix_of (w₀ := formA 0xB5#8 x y z) rfl rfl fun _ => by simp [decodeGyrix, decodeRowB]
theorem waitph (x y) : Statement (.waitph x y) :=
  gyrix_of (w₀ := formA 0xB6#8 0#8 x y) rfl rfl fun _ => by simp [decodeGyrix, decodeRowB]
theorem cpyset (x r ch) : Statement (.cpyset x r ch) :=
  gyrix_of (w₀ := formA 0xC0#8 0#8 (pairField x) (immField (ch ++ r))) rfl rfl fun _ => by simp [decodeGyrix, decodeRowC]
theorem cpygo (x y) : Statement (.cpygo x y) :=
  gyrix_of (w₀ := formA 0xC1#8 x 0#8 (immField y)) rfl rfl fun _ => by simp [decodeGyrix, decodeRowC]
theorem waitid (x y) : Statement (.waitid x y) :=
  gyrix_of (w₀ := formA 0xC2#8 0#8 x (immField y)) rfl rfl fun _ => by simp [decodeGyrix, decodeRowC]
theorem rgather (x y z) : Statement (.rgather x y z) :=
  gyrix_of (w₀ := formA 0xC3#8 x (pairField y) z) rfl rfl fun _ => by simp [decodeGyrix, decodeRowC]
theorem rscat (x y z) : Statement (.rscat x y z) :=
  gyrix_of (w₀ := formA 0xC4#8 x (pairField y) z) rfl rfl fun _ => by simp [decodeGyrix, decodeRowC]
theorem rscatadd (x y z) : Statement (.rscatadd x y z) :=
  gyrix_of (w₀ := formA 0xC5#8 x (pairField y) z) rfl rfl fun _ => by simp [decodeGyrix, decodeRowC]
theorem coll (x y z) : Statement (.coll x y z) :=
  gyrix_of (w₀ := formA 0xC6#8 x (pairField y) z) rfl rfl fun _ => by simp [decodeGyrix, decodeRowC]
theorem mma (s k x y) : Statement (.mma s k x y) :=
  gyrix_of (w₀ := formA 0xD0#8 (immField (k ++ s)) (pairField x) (pairField y)) rfl rfl fun _ => by simp [decodeGyrix, decodeRowD]
theorem mmap (s k x y) : Statement (.mmap s k x y) :=
  gyrix_of (w₀ := formA 0xD1#8 (immField (k ++ s)) (pairField x) (pairField y)) rfl rfl fun _ => by simp [decodeGyrix, decodeRowD]
theorem mxfence (x) : Statement (.mxfence x) :=
  gyrix_of (w₀ := formA 0xD2#8 x 0#8 0#8) rfl rfl fun _ => by simp [decodeGyrix, decodeRowD]
theorem mxwait (x) : Statement (.mxwait x) :=
  gyrix_of (w₀ := formA 0xD3#8 0#8 x 0#8) rfl rfl fun _ => by simp [decodeGyrix, decodeRowD]
theorem acswap (i) : Statement (.acswap i) :=
  gyrix_of (w₀ := formC 0xD4#8 0#8 (0#8 ++ i)) rfl rfl fun _ => by simp [decodeGyrix, decodeRowD]
theorem acld (x y z) : Statement (.acld x y z) :=
  gyrix_of (w₀ := formA 0xD5#8 x y (predField z)) rfl rfl fun _ => by simp [decodeGyrix, decodeRowD]
theorem acst (x y z) : Statement (.acst x y z) :=
  gyrix_of (w₀ := formA 0xD6#8 x y (predField z)) rfl rfl fun _ => by simp [decodeGyrix, decodeRowD]
theorem aczero (i) : Statement (.aczero i) :=
  gyrix_of (w₀ := formC 0xD7#8 0#8 (0#8 ++ i)) rfl rfl fun _ => by simp [decodeGyrix, decodeRowD]
theorem acdrain (x y) : Statement (.acdrain x y) :=
  gyrix_of (w₀ := formA 0xD8#8 0#8 (pairField x) (predField y)) rfl rfl fun _ => by simp [decodeGyrix, decodeRowD]
theorem sacc (x y z) : Statement (.sacc x y z) :=
  gyrix_of (w₀ := formA 0xD9#8 (predField x) y (predField z)) rfl rfl fun _ => by simp [decodeGyrix, decodeRowD]
theorem cbload (x y) : Statement (.cbload x y) :=
  gyrix_of (w₀ := formA 0xDA#8 0#8 (pairField x) (immField y)) rfl rfl fun _ => by simp [decodeGyrix, decodeRowD]
theorem mxredx (x y) : Statement (.mxredx x y) :=
  gyrix_of (w₀ := formA 0xDB#8 (predField x) y 0#8) rfl rfl fun _ => by simp [decodeGyrix, decodeRowD]
theorem rcfence : Statement (.rcfence) :=
  gyrix_of (w₀ := formA 0xDC#8 0#8 0#8 0#8) rfl rfl fun _ => by simp [decodeGyrix, decodeRowD]
theorem taload (x y) : Statement (.taload x y) :=
  gyrix_of (w₀ := formA 0xE0#8 0#8 (pairField x) (immField y)) rfl rfl fun _ => by simp [decodeGyrix, decodeRowE]
theorem taeval (x y z) : Statement (.taeval x y z) :=
  gyrix_of (w₀ := formA 0xE1#8 (predField x) (pairField y) z) rfl rfl fun _ => by simp [decodeGyrix, decodeRowE]
theorem leafgather (x y z) : Statement (.leafgather x y z) :=
  gyrix_of (w₀ := formA 0xE2#8 x (pairField y) z) rfl rfl fun _ => by simp [decodeGyrix, decodeRowE]
theorem sgnproj (x y z) : Statement (.sgnproj x y z) :=
  gyrix_of (w₀ := formA 0xE3#8 x (pairField y) z) rfl rfl fun _ => by simp [decodeGyrix, decodeRowE]
theorem tlaunch (x y z) : Statement (.tlaunch x y z) :=
  gyrix_of (w₀ := formA 0xE8#8 x (pairField y) z) rfl rfl fun _ => by simp [decodeGyrix, decodeRowE]
theorem cqpop (x) : Statement (.cqpop x) :=
  gyrix_of (w₀ := formA 0xE9#8 (pairField x) 0#8 0#8) rfl rfl fun h => by simp [decodeGyrix, decodeRowE, checked_ok _ h]
theorem cqwait (x) : Statement (.cqwait x) :=
  gyrix_of (w₀ := formA 0xEA#8 0#8 x 0#8) rfl rfl fun _ => by simp [decodeGyrix, decodeRowE]
theorem ldlod (x y z) : Statement (.ldlod x y z) :=
  gyrix_of (w₀ := formA 0xF0#8 (pairField x) (pairField y) z) rfl rfl fun _ => by simp [decodeGyrix, decodeRowF]
theorem sample (x y z) : Statement (.sample x y z) :=
  gyrix_of (w₀ := formA 0xF1#8 x (pairField y) z) rfl rfl fun _ => by simp [decodeGyrix, decodeRowF]
theorem primemit (x) : Statement (.primemit x) :=
  gyrix_of (w₀ := formA 0xF2#8 0#8 (pairField x) 0#8) rfl rfl fun _ => by simp [decodeGyrix, decodeRowF]
theorem visrd (x y) : Statement (.visrd x y) :=
  gyrix_of (w₀ := formA 0xF3#8 x y 0#8) rfl rfl fun _ => by simp [decodeGyrix, decodeRowF]
theorem trap (i) : Statement (.trap i) :=
  gyrix_of (w₀ := formC 0xF8#8 0#8 i) rfl rfl fun _ => by simp [decodeGyrix, decodeRowF]
theorem brk (i) : Statement (.brk i) :=
  gyrix_of (w₀ := formC 0xF9#8 0#8 i) rfl rfl fun _ => by simp [decodeGyrix, decodeRowF]
theorem rte : Statement (.rte) :=
  gyrix_of (w₀ := formA 0xFA#8 0#8 0#8 0#8) rfl rfl fun _ => by simp [decodeGyrix, decodeRowF]
theorem nfetch (a) : Statement (.nfetch a) :=
  gts_of (w₀ := gtsForm 1#6 0#4 a 0#4 0#14) rfl rfl fun _ => by simp [decodeGts, decodeGtsA]
theorem ndec (d) : Statement (.ndec d) :=
  gts_of (w₀ := gtsForm 2#6 d 0#4 0#4 0#14) rfl rfl fun _ => by simp [decodeGts, decodeGtsA]
theorem nfield (d a k) : Statement (.nfield d a k) :=
  gts_of (w₀ := gtsForm 3#6 d a 0#4 k) rfl rfl fun h => by simp [decodeGts, decodeGtsA, checked_ok _ h]
theorem nchild (d a) : Statement (.nchild d a) :=
  gts_of (w₀ := gtsForm 4#6 d a 0#4 0#14) rfl rfl fun _ => by simp [decodeGts, decodeGtsA]
theorem boxt (d a) : Statement (.boxt d a) :=
  gts_of (w₀ := gtsForm 5#6 d a 0#4 0#14) rfl rfl fun h => by simp [decodeGts, decodeGtsA, checked_ok _ h]
theorem trit (d a) : Statement (.trit d a) :=
  gts_of (w₀ := gtsForm 6#6 d a 0#4 0#14) rfl rfl fun h => by simp [decodeGts, decodeGtsA, checked_ok _ h]
theorem frust (d a) : Statement (.frust d a) :=
  gts_of (w₀ := gtsForm 7#6 d a 0#4 0#14) rfl rfl fun h => by simp [decodeGts, decodeGtsA, checked_ok _ h]
theorem kcmp (d a m) : Statement (.kcmp d a m) :=
  gts_of (w₀ := gtsForm 8#6 d a 0#4 (0#13 ++ m)) rfl rfl fun _ => by simp [decodeGts, decodeGtsA]
theorem krange (d a b) : Statement (.krange d a b) :=
  gts_of (w₀ := gtsForm 9#6 d a b 0#14) rfl rfl fun _ => by simp [decodeGts, decodeGtsA]
theorem dist (d a b m n) : Statement (.dist d a b m n) :=
  gts_of (w₀ := gtsForm 10#6 d a b (m ++ n)) rfl rfl fun h => by simp [decodeGts, decodeGtsA, checked_ok _ h]
theorem topk (d a b) : Statement (.topk d a b) :=
  gts_of (w₀ := gtsForm 11#6 d a b 0#14) rfl rfl fun _ => by simp [decodeGts, decodeGtsA]
theorem push (a b) : Statement (.push a b) :=
  gts_of (w₀ := gtsForm 12#6 0#4 a b 0#14) rfl rfl fun _ => by simp [decodeGts, decodeGtsA]
theorem pushm (a b m) : Statement (.pushm a b m) :=
  gts_of (w₀ := gtsForm 13#6 0#4 a b (0#13 ++ m)) rfl rfl fun _ => by simp [decodeGts, decodeGtsA]
theorem pop (d) : Statement (.pop d) :=
  gts_of (w₀ := gtsForm 14#6 d 0#4 0#4 0#14) rfl rfl fun h => by simp [decodeGts, decodeGtsA, checked_ok _ h]
theorem stkd (d) : Statement (.stkd d) :=
  gts_of (w₀ := gtsForm 15#6 d 0#4 0#4 0#14) rfl rfl fun _ => by simp [decodeGts, decodeGtsA]
theorem ldq (d x k) : Statement (.ldq d x k) :=
  gts_of (w₀ := gtsForm 16#6 d 0#4 0#4 (0#9 ++ x ++ k)) rfl rfl fun h => by simp [decodeGts, decodeGtsB, checked_ok _ h]
theorem stq (a x k) : Statement (.stq a x k) :=
  gts_of (w₀ := gtsForm 17#6 0#4 a 0#4 (0#9 ++ x ++ k)) rfl rfl fun h => by simp [decodeGts, decodeGtsB, checked_ok _ h]
theorem ldn (d a k) : Statement (.ldn d a k) :=
  gts_of (w₀ := gtsForm 18#6 d a 0#4 k) rfl rfl fun _ => by simp [decodeGts, decodeGtsB]
theorem gtsAdd (d a b) : Statement (.gtsAdd d a b) :=
  gts_of (w₀ := gtsForm 19#6 d a b 0#14) rfl rfl fun _ => by simp [decodeGts, decodeGtsB]
theorem gtsAddImm (d a k) : Statement (.gtsAddImm d a k) :=
  gts_of (w₀ := gtsForm 19#6 d a 0#4 (1#1 ++ k)) rfl rfl fun _ => by simp [decodeGts, decodeGtsB]
theorem gtsSub (d a b) : Statement (.gtsSub d a b) :=
  gts_of (w₀ := gtsForm 20#6 d a b 0#14) rfl rfl fun _ => by simp [decodeGts, decodeGtsB]
theorem gtsSubImm (d a k) : Statement (.gtsSubImm d a k) :=
  gts_of (w₀ := gtsForm 20#6 d a 0#4 (1#1 ++ k)) rfl rfl fun _ => by simp [decodeGts, decodeGtsB]
theorem gtsMul (d a b) : Statement (.gtsMul d a b) :=
  gts_of (w₀ := gtsForm 21#6 d a b 0#14) rfl rfl fun _ => by simp [decodeGts, decodeGtsB]
theorem gtsMulImm (d a k) : Statement (.gtsMulImm d a k) :=
  gts_of (w₀ := gtsForm 21#6 d a 0#4 (1#1 ++ k)) rfl rfl fun _ => by simp [decodeGts, decodeGtsB]
theorem gtsAnd (d a b) : Statement (.gtsAnd d a b) :=
  gts_of (w₀ := gtsForm 22#6 d a b 0#14) rfl rfl fun _ => by simp [decodeGts, decodeGtsB]
theorem gtsAndImm (d a k) : Statement (.gtsAndImm d a k) :=
  gts_of (w₀ := gtsForm 22#6 d a 0#4 (1#1 ++ k)) rfl rfl fun _ => by simp [decodeGts, decodeGtsB]
theorem gtsOr (d a b) : Statement (.gtsOr d a b) :=
  gts_of (w₀ := gtsForm 23#6 d a b 0#14) rfl rfl fun _ => by simp [decodeGts, decodeGtsB]
theorem gtsOrImm (d a k) : Statement (.gtsOrImm d a k) :=
  gts_of (w₀ := gtsForm 23#6 d a 0#4 (1#1 ++ k)) rfl rfl fun _ => by simp [decodeGts, decodeGtsB]
theorem gtsXor (d a b) : Statement (.gtsXor d a b) :=
  gts_of (w₀ := gtsForm 24#6 d a b 0#14) rfl rfl fun _ => by simp [decodeGts, decodeGtsB]
theorem gtsXorImm (d a k) : Statement (.gtsXorImm d a k) :=
  gts_of (w₀ := gtsForm 24#6 d a 0#4 (1#1 ++ k)) rfl rfl fun _ => by simp [decodeGts, decodeGtsB]
theorem gtsShl (d a b) : Statement (.gtsShl d a b) :=
  gts_of (w₀ := gtsForm 25#6 d a b 0#14) rfl rfl fun _ => by simp [decodeGts, decodeGtsB]
theorem gtsShlImm (d a k) : Statement (.gtsShlImm d a k) :=
  gts_of (w₀ := gtsForm 25#6 d a 0#4 (1#1 ++ k)) rfl rfl fun _ => by simp [decodeGts, decodeGtsB]
theorem gtsShr (d a b) : Statement (.gtsShr d a b) :=
  gts_of (w₀ := gtsForm 26#6 d a b 0#14) rfl rfl fun _ => by simp [decodeGts, decodeGtsB]
theorem gtsShrImm (d a k) : Statement (.gtsShrImm d a k) :=
  gts_of (w₀ := gtsForm 26#6 d a 0#4 (1#1 ++ k)) rfl rfl fun _ => by simp [decodeGts, decodeGtsB]
theorem gtsMov (d a) : Statement (.gtsMov d a) :=
  gts_of (w₀ := gtsForm 27#6 d a 0#4 0#14) rfl rfl fun _ => by simp [decodeGts, decodeGtsB]
theorem gtsLdi (d k) : Statement (.gtsLdi d k) :=
  gts_of (w₀ := gtsForm 28#6 d 0#4 0#4 k) rfl rfl fun _ => by simp [decodeGts, decodeGtsB]
theorem gtsCmp (a b c) : Statement (.gtsCmp a b c) :=
  gts_of (w₀ := gtsForm 29#6 0#4 a b (0#11 ++ c)) rfl rfl fun _ => by simp [decodeGts, decodeGtsB]
theorem jump (k) : Statement (.jump k) :=
  gts_of (w₀ := gtsForm 30#6 0#4 0#4 0#4 k) rfl rfl fun _ => by simp [decodeGts, decodeGtsB]
theorem jumpF (k) : Statement (.jumpF k) :=
  gts_of (w₀ := gtsForm 31#6 0#4 0#4 0#4 k) rfl rfl fun _ => by simp [decodeGts, decodeGtsB]
theorem jumpNF (k) : Statement (.jumpNF k) :=
  gts_of (w₀ := gtsForm 32#6 0#4 0#4 0#4 k) rfl rfl fun _ => by simp [decodeGts, decodeGtsB]
theorem emit (a) : Statement (.emit a) :=
  gts_of (w₀ := gtsForm 33#6 0#4 a 0#4 0#14) rfl rfl fun _ => by simp [decodeGts, decodeGtsB]
theorem hook (a k) : Statement (.hook a k) :=
  gts_of (w₀ := gtsForm 34#6 0#4 a 0#4 k) rfl rfl fun _ => by simp [decodeGts, decodeGtsB]
theorem done (a) : Statement (.done a) :=
  gts_of (w₀ := gtsForm 35#6 0#4 a 0#4 0#14) rfl rfl fun _ => by simp [decodeGts, decodeGtsB]
theorem cover (a b) : Statement (.cover a b) :=
  gts_of (w₀ := gtsForm 36#6 0#4 a b 0#14) rfl rfl fun _ => by simp [decodeGts, decodeGtsB]
theorem handoff (a) : Statement (.handoff a) :=
  gts_of (w₀ := gtsForm 37#6 0#4 a 0#4 0#14) rfl rfl fun _ => by simp [decodeGts, decodeGtsB]
theorem reset : Statement (.reset) := statement_none rfl
theorem functionReady (a b) : Statement (.functionReady a b) := statement_none rfl
theorem thermalTrip : Statement (.thermalTrip) := statement_none rfl
theorem throttleStep (a) : Statement (.throttleStep a) := statement_none rfl
theorem ualinkEnable (a) : Statement (.ualinkEnable a) := statement_none rfl
theorem ualinkUp : Statement (.ualinkUp) := statement_none rfl
theorem ualinkLoss : Statement (.ualinkLoss) := statement_none rfl
theorem remoteWalkerTimeout (a) : Statement (.remoteWalkerTimeout a) := statement_none rfl
theorem fabricTimeout (a) : Statement (.fabricTimeout a) := statement_none rfl
theorem fabricResponse (a b) : Statement (.fabricResponse a b) := statement_none rfl
theorem ingressRequest (a) : Statement (.ingressRequest a) := statement_none rfl
theorem ingressTimeout (a) : Statement (.ingressTimeout a) := statement_none rfl
theorem handoffArrival (a) : Statement (.handoffArrival a) := statement_none rfl
theorem remoteEntryArrival (a b c d) : Statement (.remoteEntryArrival a b c d) := statement_none rfl
theorem hostEnqueueStore (a b c) : Statement (.hostEnqueueStore a b c) := statement_none rfl
theorem hostMemStore (a b) : Statement (.hostMemStore a b) := statement_none rfl
theorem hostMemRead (a b) : Statement (.hostMemRead a b) := statement_none rfl
theorem cxlSnoop (a) : Statement (.cxlSnoop a) := statement_none rfl
theorem spdmMeasurements (a) : Statement (.spdmMeasurements a) := statement_none rfl
theorem registerWrite (a b c) : Statement (.registerWrite a b c) := statement_none rfl
theorem queueEnable (a b c) : Statement (.queueEnable a b c) := statement_none rfl
theorem queueDisable (a b) : Statement (.queueDisable a b) := statement_none rfl
theorem faultRetry (a b) : Statement (.faultRetry a b) := statement_none rfl
theorem faultUnresolvable (a b) : Statement (.faultUnresolvable a b) := statement_none rfl
theorem faultRecordPost (a) : Statement (.faultRecordPost a) := statement_none rfl
theorem shootdownGo (a b) : Statement (.shootdownGo a b) := statement_none rfl
theorem shootdownAck (a b) : Statement (.shootdownAck a b) := statement_none rfl
theorem preemptGo (a b) : Statement (.preemptGo a b) := statement_none rfl
theorem preemptResume (a) : Statement (.preemptResume a) := statement_none rfl
theorem engineStop (a b) : Statement (.engineStop a b) := statement_none rfl
theorem gangStop (a) : Statement (.gangStop a) := statement_none rfl
theorem mapout (a) : Statement (.mapout a) := statement_none rfl
theorem pairMapOut (a) : Statement (.pairMapOut a) := statement_none rfl
theorem featureAccept (a) : Statement (.featureAccept a) := statement_none rfl
theorem errRecordFree (a b) : Statement (.errRecordFree a b) := statement_none rfl
theorem debugAttach (a b) : Statement (.debugAttach a b) := statement_none rfl
theorem debugDetach (a) : Statement (.debugDetach a) := statement_none rfl
theorem debugHalt (a) : Statement (.debugHalt a) := statement_none rfl
theorem debugRelease (a) : Statement (.debugRelease a) := statement_none rfl
theorem debugStep (a b) : Statement (.debugStep a b) := statement_none rfl
theorem debugSave (a b) : Statement (.debugSave a b) := statement_none rfl
theorem debugRestore (a b) : Statement (.debugRestore a b) := statement_none rfl
theorem debugSkipBreakpoint (a b) : Statement (.debugSkipBreakpoint a b) := statement_none rfl
theorem debugResume (a b) : Statement (.debugResume a b) := statement_none rfl
theorem belvedereTick : Statement (.belvedereTick) := statement_none rfl
theorem patrolScrub (a b) : Statement (.patrolScrub a b) := statement_none rfl
theorem recordStart (a b) : Statement (.recordStart a b) := statement_none rfl
theorem gridRecordReceive (a b) : Statement (.gridRecordReceive a b) := statement_none rfl
theorem blockPlacement (a) : Statement (.blockPlacement a) := statement_none rfl
theorem stealMessage (a b) : Statement (.stealMessage a b) := statement_none rfl
theorem stealReply (a) : Statement (.stealReply a) := statement_none rfl
theorem persistentGridAdmit (a) : Statement (.persistentGridAdmit a) := statement_none rfl
theorem gridTriggered (a b) : Statement (.gridTriggered a b) := statement_none rfl
theorem deqDeliver (a b) : Statement (.deqDeliver a b) := statement_none rfl
theorem spawnAppend (a) : Statement (.spawnAppend a) := statement_none rfl
theorem waveEnd (a) : Statement (.waveEnd a) := statement_none rfl
theorem blockComplete (a) : Statement (.blockComplete a) := statement_none rfl
theorem loadReturn (a b) : Statement (.loadReturn a b) := statement_none rfl
theorem memoryPerform (a b c) : Statement (.memoryPerform a b c) := statement_none rfl
theorem drPropagate (a) : Statement (.drPropagate a) := statement_none rfl
theorem logReplay (a b) : Statement (.logReplay a b) := statement_none rfl
theorem trapDeliver (a) : Statement (.trapDeliver a) := statement_none rfl
theorem queryStart (a) : Statement (.queryStart a) := statement_none rfl
theorem tlaunchEnqueue (a) : Statement (.tlaunchEnqueue a) := statement_none rfl
theorem walkerWaitEnd (a) : Statement (.walkerWaitEnd a) := statement_none rfl
theorem sluicePost (a) : Statement (.sluicePost a) := statement_none rfl
theorem copyChunk (a b) : Statement (.copyChunk a b) := statement_none rfl
theorem transferRetire (a b c) : Statement (.transferRetire a b c) := statement_none rfl
theorem cpygoStart (a) : Statement (.cpygoStart a) := statement_none rfl
theorem elementAccess (a) : Statement (.elementAccess a) := statement_none rfl
theorem collCombine : Statement (.collCombine) := statement_none rfl
theorem matrixOwnershipGrant (a b) : Statement (.matrixOwnershipGrant a b) := statement_none rfl
theorem matrixOpRetire (a b) : Statement (.matrixOpRetire a b) := statement_none rfl
theorem acswapExchange (a) : Statement (.acswapExchange a) := statement_none rfl
theorem mxredxArrival (a) : Statement (.mxredxArrival a) := statement_none rfl
theorem feedbackLog (a) : Statement (.feedbackLog a) := statement_none rfl
theorem primemitSend (a) : Statement (.primemitSend a) := statement_none rfl
theorem triangleArrival (a) : Statement (.triangleArrival a) := statement_none rfl
theorem triangleCommit (a) : Statement (.triangleCommit a) := statement_none rfl
theorem tileSpill (a b) : Statement (.tileSpill a b) := statement_none rfl
theorem illegalInstructionWord (a) : Statement (.illegalInstructionWord a) := statement_none rfl
theorem gtsIllegalWord (a) : Statement (.gtsIllegalWord a) := statement_none rfl
theorem corePowerGating (a) : Statement (.corePowerGating a) := statement_none rfl
theorem corePowerUngating (a) : Statement (.corePowerUngating a) := statement_none rfl

end Sys2Proof.Laws.Encoding
end

