-- ==== Sys2Proof/Laws/Shapes.lean ====
section
/-! SUPPORT. Storage shapes never change a result: the shape that R50 gives a result holds its lanes (R45 to R51, R88). -/

namespace Sys2Proof.Machine

/-! ### What the shapes of operands say of their lanes -/

theorem lane_of_u (R : Regs) (r : Reg) (h : shape32 R r = .u) (i : Nat) : lane R r i = lane R r 0 := by
  unfold shape32 at h
  split at h
  · rename_i x hx; rw [lane_u R r x i hx, lane_u R r x 0 hx]
  · exact nomatch h
  · exact nomatch h

/-- A lane of an A register from a base and a stride. -/
theorem lane_of_a' (R : Regs) (r : Reg) (h : shape32 R r = .a) :
    ∃ b st : Word, ∀ i, lane R r i = b + BitVec.ofNat 32 i * st := by
  unfold shape32 at h
  split at h
  · exact nomatch h
  · rename_i slot hx
    cases hb : r.getLsbD 0
    · by_cases hp : ∃ x, rd R (oddOf r) = .p x
      · obtain ⟨x, hp⟩ := hp
        exact ⟨_, _, fun i => lane_a_pair R r slot x i hb hx hp⟩
      · exact ⟨_, _, fun i => lane_a_alone R r slot i hx (.inr fun x hxx => hp ⟨x, hxx⟩)⟩
    · exact ⟨_, _, fun i => lane_a_alone R r slot i hx (.inl hb)⟩
  · exact nomatch h

/-- An arithmetic progression from its first two terms. -/
theorem progression32 (f : Nat → Word) (h : ∃ b st : Word, ∀ i, f i = b + BitVec.ofNat 32 i * st) (i : Nat) :
    f i = f 0 + BitVec.ofNat 32 i * (f 1 - f 0) := by
  obtain ⟨b, st, h⟩ := h
  rw [h i, h 0, h 1]
  simp [BitVec.add_comm b st, BitVec.add_sub_cancel]

theorem lane_of_a (R : Regs) (r : Reg) (h : shape32 R r = .a) (i : Nat) :
    lane R r i = lane R r 0 + BitVec.ofNat 32 i * (lane R r 1 - lane R r 0) :=
  progression32 (lane R r) (lane_of_a' R r h) i

theorem pairLane_of_u (R : Regs) (k : Pair) (h : shape64 R k = .u) (i : Nat) : pairLane R k i = pairLane R k 0 := by
  unfold shape64 at h
  split at h
  · rename_i x y hx hy
    simp only [pairLane, lane_u R _ x _ hx, lane_u R _ y _ hy]
  · exact nomatch h
  · exact nomatch h

theorem pairLane_of_a' (R : Regs) (k : Pair) (h : shape64 R k = .a) :
    ∃ (b : DWord) (st : Word), ∀ i, pairLane R k i = affine64 b st i := by
  unfold shape64 at h
  split at h
  · exact nomatch h
  · rename_i slot st hx hy
    refine ⟨slot, st, fun i => ?_⟩
    have he : (pairReg k).getLsbD 0 = false := by rw [← evenOf_pairReg]; exact odd_evenOf _
    have : lane R (oddOf (pairReg k)) i = hiWord (affine64 slot st i) := by
      simp only [lane, hy, evenOf_oddOf, evenOf_pairReg, hx]
    rw [pairLane, lane_a_pair R _ slot st i he hx hy, ← loWord_affine64, this, joinWords_split]
  · exact nomatch h

theorem progression64 (f : Nat → DWord) (h : ∃ b st : DWord, ∀ i, f i = b + BitVec.ofNat 64 i * st) (i : Nat) :
    f i = f 0 + BitVec.ofNat 64 i * (f 1 - f 0) := by
  obtain ⟨b, st, h⟩ := h
  rw [h i, h 0, h 1]
  simp [BitVec.add_comm b st, BitVec.add_sub_cancel]

theorem pairLane_of_a (R : Regs) (k : Pair) (h : shape64 R k = .a) (i : Nat) :
    pairLane R k i = pairLane R k 0 + BitVec.ofNat 64 i * (pairLane R k 1 - pairLane R k 0) := by
  obtain ⟨b, st, h⟩ := pairLane_of_a' R k h
  exact progression64 (pairLane R k) ⟨b, sext64 st, h⟩ i

/-- An operand's lanes under a type fit its shape. -/
theorem fitsT_laneT (R : Regs) (t : ETy) (r : Reg) : fitsT t (laneT R t r) (shapeT R t r) := by
  unfold fitsT laneT shapeT
  split
  · cases h : shape64 R (regPair r)
    · exact fun i _ => pairLane_of_u R _ h i
    · exact fun i _ => pairLane_of_a R _ h i
    · trivial
  · simp only [loWord_zext64]
    cases h : shape32 R r
    · exact fun i _ => lane_of_u R _ h i
    · exact fun i _ => lane_of_a R _ h i
    · trivial

/-- A value of U operands is one value. -/
theorem laneT_of_u (R : Regs) (t : ETy) (r : Reg) (h : shapeT R t r = .u) (i : Nat) : laneT R t r i = laneT R t r 0 := by
  unfold laneT
  unfold shapeT at h
  split
  · rename_i ht; rw [if_pos ht] at h; exact pairLane_of_u R _ h i
  · rename_i ht; rw [if_neg ht] at h; rw [lane_of_u R _ h i]

/-! ### What shapes a result may have -/

theorem fitsT_const (t : ETy) (f : Nat → DWord) (h : ∀ i, f i = f 0) : fitsT t f .u := by
  unfold fitsT; split
  · exact fun i _ => h i
  · exact fun i _ => congrArg loWord (h i)

theorem fitsT_g (t : ETy) (f : Nat → DWord) : fitsT t f .g := by unfold fitsT; split <;> trivial

/-- U of operands that are all U, else G. -/
theorem fitsT_allU (t : ETy) (f : Nat → DWord) (l : List Shape) (h : (∀ x ∈ l, x = .u) → ∀ i, f i = f 0) :
    fitsT t f (allU l) := by
  unfold allU
  split
  · rename_i hl
    exact fitsT_const t f (h (by simpa using hl))
  · exact fitsT_g t f

/-- A result of 32 bits, by its low words. -/
theorem fitsT_of32 (t : ETy) (ht : t.is64 = false) (f : Nat → DWord) (sh : Shape) (h : fits32 (fun i => loWord (f i)) sh) :
    fitsT t f sh := by
  unfold fitsT; rw [ht]; exact h

theorem setInt32_not64 (t : ETy) (h : setInt32 t = true) : t.is64 = false := by
  cases t <;> first | rfl | exact absurd h (by decide)

/-- The low word of a wrapped result under n32 or s32 (R87). -/
theorem loWord_wrap (t : ETy) (h : setInt32 t = true) (z : Int) : loWord (t.wrap z) = BitVec.ofInt 32 z := by
  apply BitVec.eq_of_toNat_eq
  cases t <;> first
    | exact absurd h (by decide)
    | (simp only [loWord, ETy.wrap, ETy.value, ETy.pattern, ETy.signed, ETy.width, BitVec.extractLsb'_toNat, BitVec.toNat_ofInt,
        Bool.false_and, Bool.true_and, decide_eq_true_eq]
       split <;> simp only [Nat.shiftRight_zero] <;> omega)

/-- The integer of a lane under n32 or s32, modulo 2^32 (R86). -/
theorem ofInt_value (t : ETy) (h : setInt32 t = true) (x : Word) : BitVec.ofInt 32 (t.value (zext64 x)) = x := by
  apply BitVec.eq_of_toNat_eq
  have hx := x.isLt
  cases t <;> first
    | exact absurd h (by decide)
    | (simp only [zext64, ETy.value, ETy.pattern, ETy.signed, ETy.width, BitVec.toNat_ofInt, BitVec.toNat_setWidth,
        Bool.false_and, Bool.true_and, decide_eq_true_eq]
       split <;> omega)

/-- The lane an integer operand is read from, modulo 2^32. -/
theorem ofInt_intLane (w : Wave) (t : ETy) (h : setInt32 t = true) (r : Reg) (i : Nat) :
    BitVec.ofInt 32 (w.intLane t r i) = lane w.regs r i := by
  unfold Wave.intLane laneT
  rw [setInt32_not64 t h]
  exact ofInt_value t h _

/-- R88: what `keepA` leaves of a shape fits when the operands' shape does modulo 2^32. -/
theorem fitsT_keepA (t : ETy) (sat : Bool) (sh : Shape) (x : Nat → Int)
    (hu : sh = .u → ∀ i, x i = x 0)
    (ha : sh = .a → setInt32 t = true →
      ∃ b st : Word, ∀ i, BitVec.ofInt 32 (x i) = b + BitVec.ofNat 32 i * st) (use : Bool) :
    fitsT t (fun i => t.fit (use && sat) (x i)) (keepA t sat sh) := by
  unfold keepA
  split
  · rename_i h
    simp only [Bool.and_eq_true, Bool.not_eq_true'] at h
    obtain ⟨ht, hs⟩ := h
    cases sh with
    | u => exact fitsT_const t _ fun i => congrArg (fun z => t.fit (use && sat) z) (hu rfl i)
    | g => exact fitsT_g t _
    | a =>
      refine fitsT_of32 t (setInt32_not64 t ht) _ .a fun i _ => ?_
      have hf (i : Nat) : loWord (t.fit (use && sat) (x i)) = BitVec.ofInt 32 (x i) := by
        rw [hs, Bool.and_false]; exact loWord_wrap t ht _
      simp only [hf]
      exact progression32 (fun i => BitVec.ofInt 32 (x i)) (ha rfl ht) i
  · split
    · rename_i h; exact fitsT_const t _ fun i => congrArg (fun z => t.fit (use && sat) z) (hu h i)
    · exact fitsT_g t _

/-- R100 to R105 in one: an integer instruction whose shape fits leaves the fitted results in its active lanes. -/
theorem intOp_ok (w : Wave) (hroom : w.roomFor 2) (d : Reg) (fields : List Reg) (sat : Bool) (sh : Shape)
    (x : ETy → Nat → Int) (ht : setInt (wmET w.wm) = true) (hf : (fields.all (widened (wmET w.wm))) = true) :
    w.intOp d fields sat sh x = .ok { w with
      regs := (writeT w.regs (activeMask w) (wmET w.wm) d (fun i => (wmET w.wm).fit (sat && wmSAT w.wm) (x (wmET w.wm) i))
        (keepA (wmET w.wm) (wmSAT w.wm) sh)) } := by
  unfold Wave.intOp
  simp only [accept, ht, if_true, require, hf]
  exact put_ok w hroom _ _ _ _ _

/-- An instruction of a wave that writes one typed destination in a shape its lanes fit. -/
theorem own_lanes (i : Instr) (s : State) (w : Wave) (h : s.runs w) (eff : Wave → Run Wave) (act : Word) (t : ETy) (d : Reg)
    (f : Nat → DWord) (sh : Shape) (hx : exec i s = issueOwn i s eff)
    (he : eff w.issued = .ok { w.issued with regs := writeT w.regs act t d f sh }) (hf : act = fullMask → fitsT t f sh)
    (hk : keepsL1 w.atIssue i = true := by rfl) : writesLanes i s w act t d f := by
  refine ⟨_, ?_, pairsOk_writeT w.regs h.2 act t d f sh, ?_, ?_⟩
  · rw [hx, issueOwn_ok i s w _ eff h.1 he hk]; rfl
  · exact fun n hn => laneT_writeT w.regs h.2 act t d f sh hf n hn
  · exact fun r hr n hn => lane_writeT_other w.regs h.2 act t d f sh hf r hr n hn

/-- An integer instruction from the shape facts of its row in R105. -/
theorem int_lanes (i : Instr) (s : State) (w : Wave) (h : s.runs w) (hroom : w.roomFor 2) (d : Reg) (fields : List Reg)
    (sat : Bool) (sh : Wave → Shape) (x : Wave → ETy → Nat → Int)
    (hx : exec i s = issueOwn i s fun w => w.intOp d fields sat (sh w) (x w))
    (ht : setInt (wmET w.wm) = true) (hfi : (fields.all (widened (wmET w.wm))) = true)
    (hu : sh w = .u → ∀ i, x w (wmET w.wm) i = x w (wmET w.wm) 0)
    (ha : sh w = .a → setInt32 (wmET w.wm) = true →
      ∃ b st : Word, ∀ i, BitVec.ofInt 32 (x w (wmET w.wm) i) = b + BitVec.ofNat 32 i * st)
    (hsh : sh w.issued = sh w) (hxx : x w.issued = x w) (hk : keepsL1 w.atIssue i = true := by rfl) :
    writesLanes i s w (activeMask w) (wmET w.wm) d fun n => (wmET w.wm).fit (sat && wmSAT w.wm) (x w (wmET w.wm) n) := by
  refine own_lanes i s w h _ _ _ _ _ _ hx ?_ (fun _ => fitsT_keepA _ _ _ _ hu ha sat) hk
  have := intOp_ok w.issued hroom d fields sat (sh w.issued) (x w.issued) ht hfi
  rw [this, hxx, hsh]; rfl

/-! ### The rows of R105 -/

theorem sum_u {x y : Shape} (h : Shape.sum x y = .u) : x = .u ∧ y = .u := by revert h; cases x <;> cases y <;> decide
theorem sum_a {x y : Shape} (h : Shape.sum x y = .a) : x ≠ .g ∧ y ≠ .g := by revert h; cases x <;> cases y <;> decide
theorem plain_u {x y : Shape} (h : Shape.plain x y = .u) : x = .u ∧ y = .u := by revert h; cases x <;> cases y <;> decide
theorem plain_not_a (x y : Shape) : Shape.plain x y ≠ .a := by cases x <;> cases y <;> decide
theorem scaled_u {x y : Shape} (h : Shape.scaled x y = .u) : x = .u ∧ y = .u := by
  revert h; cases x <;> cases y <;> decide
theorem scaled_a {x y : Shape} (h : Shape.scaled x y = .a) : (x = .a ∧ y = .u) ∨ (x = .u ∧ y = .a) := by
  revert h; cases x <;> cases y <;> decide
theorem shifted_u {x y : Shape} (h : Shape.shifted x y = .u) : x = .u ∧ y = .u := by
  revert h; cases x <;> cases y <;> decide
theorem shifted_a {x y : Shape} (h : Shape.shifted x y = .a) : x = .a ∧ y = .u := by
  revert h; cases x <;> cases y <;> decide
theorem flat_u {x : Shape} (h : x.flat = .u) : x = .u := by revert h; cases x <;> decide
theorem flat_not_a (x : Shape) : x.flat ≠ .a := by cases x <;> decide
theorem madShape_u {x y : Shape} (h : madShape x y = .u) : x = .u ∧ y = .u := by
  revert h; cases x <;> cases y <;> decide
theorem madShape_a {x y : Shape} (h : madShape x y = .a) : x = .a ∧ y ≠ .g := by
  revert h; cases x <;> cases y <;> decide

theorem intLane_of_u (w : Wave) (r : Reg) (h : w.shapeOf r = .u) (i : Nat) :
    w.intLane (wmET w.wm) r i = w.intLane (wmET w.wm) r 0 := by
  unfold Wave.intLane; rw [laneT_of_u w.regs (wmET w.wm) r h i]

/-- A lane that is U or A is an arithmetic progression modulo 2^32. -/
theorem intLane_progression (w : Wave) (r : Reg) (ht : setInt32 (wmET w.wm) = true) (h : w.shapeOf r ≠ .g) :
    ∃ b st : Word, ∀ i, BitVec.ofInt 32 (w.intLane (wmET w.wm) r i) = b + BitVec.ofNat 32 i * st := by
  simp only [ofInt_intLane w _ ht r]
  have hs : w.shapeOf r = shape32 w.regs r := by unfold Wave.shapeOf shapeT; rw [setInt32_not64 _ ht]; rfl
  rw [hs] at h
  cases hh : shape32 w.regs r with
  | u => exact ⟨lane w.regs r 0, 0, fun i => by simp [lane_of_u w.regs r hh i]⟩
  | a => exact lane_of_a' w.regs r hh
  | g => exact absurd hh h

/-- A lane that is U is one value modulo 2^32. -/
theorem intLane_fixed (w : Wave) (r : Reg) (ht : setInt32 (wmET w.wm) = true) (h : w.shapeOf r = .u) (i : Nat) :
    BitVec.ofInt 32 (w.intLane (wmET w.wm) r i) = lane w.regs r 0 := by
  rw [intLane_of_u w r h, ofInt_intLane w _ ht]

theorem progression_add {f g : Nat → Word} (hf : ∃ b st : Word, ∀ i, f i = b + BitVec.ofNat 32 i * st)
    (hg : ∃ b st : Word, ∀ i, g i = b + BitVec.ofNat 32 i * st) : ∃ b st : Word, ∀ i, f i + g i = b + BitVec.ofNat 32 i * st := by
  obtain ⟨b, st, hf⟩ := hf
  obtain ⟨b', st', hg⟩ := hg
  refine ⟨b + b', st + st', fun i => ?_⟩
  rw [hf, hg, BitVec.mul_add]
  ac_rfl

theorem progression_scale {f : Nat → Word} (hf : ∃ b st : Word, ∀ i, f i = b + BitVec.ofNat 32 i * st) (c : Word) :
    ∃ b st : Word, ∀ i, f i * c = b + BitVec.ofNat 32 i * st := by
  obtain ⟨b, st, hf⟩ := hf
  refine ⟨b * c, st * c, fun i => ?_⟩
  rw [hf, BitVec.mul_comm, BitVec.mul_add]
  ac_rfl

theorem progression_neg {f : Nat → Word} (hf : ∃ b st : Word, ∀ i, f i = b + BitVec.ofNat 32 i * st) :
    ∃ b st : Word, ∀ i, -(f i) = b + BitVec.ofNat 32 i * st := by
  obtain ⟨b, st, hf⟩ := hf
  exact ⟨-b, -st, fun i => by rw [hf, BitVec.neg_add, BitVec.mul_neg, BitVec.sub_eq_add_neg]⟩

end Sys2Proof.Machine
end

