-- ==== Sys2Proof/Tests/Slice0.lean ====
section
/-! SUPPORT. Tests: ill-formed instructions, words of every family, a state that meets the hypotheses of each statement, and single
instructions on small states. -/

namespace Sys2Proof.Tests

set_option Elab.async false

open Sys2Proof.Machine Sys2Proof.Claims

/-! ### Ill-formed instructions are refused -/

theorem test_deq_d : (Instr.deq 241 0).wellFormed = false ∧ (Instr.deq 240 0).wellFormed = true := by decide
theorem test_cqpop_d : (Instr.cqpop 127).wellFormed = false ∧ (Instr.cqpop 126).wellFormed = true := by decide
theorem test_fence_order : (Instr.fence 5 0 false false).wellFormed = false ∧ (Instr.fence 4 5 true true).wellFormed = true := by decide
theorem test_fence_scope : (Instr.fence 0 6 false false).wellFormed = false := by decide
theorem test_nfield_k : (Instr.nfield 0 0 16).wellFormed = false ∧ (Instr.nfield 0 0 15).wellFormed = true := by decide
theorem test_boxt_a : (Instr.boxt 0 13).wellFormed = false ∧ (Instr.boxt 15 12).wellFormed = true := by decide
theorem test_trit_fields : (Instr.trit 15 0).wellFormed = false ∧ (Instr.trit 0 13).wellFormed = false ∧ (Instr.trit 14 12).wellFormed = true := by
  decide
theorem test_pop_d : (Instr.pop 15).wellFormed = false ∧ (Instr.pop 14).wellFormed = true := by decide
theorem test_dist_fields : (Instr.dist 0 0 0 2 1).wellFormed = false ∧ (Instr.dist 0 0 0 1 0).wellFormed = false
    ∧ (Instr.dist 0 0 0 1 4095).wellFormed = true := by decide
theorem test_ldq_k : (Instr.ldq 0 0 10).wellFormed = false ∧ (Instr.ldq 0 0 9).wellFormed = true ∧ (Instr.ldq 0 1 9).wellFormed = false
    ∧ (Instr.ldq 0 1 10).wellFormed = false ∧ (Instr.ldq 0 1 8).wellFormed = true := by decide
theorem test_stq_k : (Instr.stq 0 0 10).wellFormed = false ∧ (Instr.stq 0 1 7).wellFormed = false ∧ (Instr.stq 0 1 8).wellFormed = true := by decide

/-! ### Words of the encodings decode to their instructions

Each word is written out from the encoding tables of R73, R75, R79, R253 and R254. -/

/-- The worked encodings of the chapters on encoding and arithmetic. -/
theorem test_decode_worked :
    decodeGyrix 0x23101008 = .ok (.addi 16 16 8) ∧ decodeGyrix 0xA00E0CFE = .ok (.ld 14 6 (-2)) ∧ decodeGyrix 0x80FFFFF4 = .ok (.bra (-12))
    ∧ decodeGyrix 0xB2000063 = .ok (.fence 3 4 true false) ∧ decodeGyrix 0x96000003 = .ok (.bar 3) ∧ decodeGyrix 0xD01D282A = .ok (.mma 5 3 20 21)
    ∧ decodeGyrix 0x041E000B = .ok (.getsr 30 0xB) ∧ decodeGyrix 0x0506000D = .ok (.setsr 6 0xD) ∧ decodeGyrix 0x2B02000A = .ok (.lea8 1 0 10)
    ∧ decodeGyrix 0x2C090200 = .ok (.suba 9 1 0) ∧ decodeGyrix 0x45020809 = .ok (.cmpge 2 8 9) ∧ decodeGyrix 0x54282910 = .ok (.shflx 40 41 16)
    ∧ decodeGyrix 0x57323100 = .ok (.redadd 50 49) ∧ decodeGyrix 0x63161214 = .ok (.fma 22 18 20) ∧ decodeGyrix 0x74070601 = .ok (.unpk 7 6 1) :=
  ⟨rfl, rfl, rfl, rfl, rfl, rfl, rfl, rfl, rfl, rfl, rfl, rfl, rfl, rfl, rfl⟩
theorem test_decode_refused :
    decodeGyrix 0xB1000000 = .error .unassignedOpcode ∧ decodeGyrix 0xFF123456 = .error .unassignedOpcode
    ∧ decodeGyrix 0x42090A04 = .error .fieldKind ∧ decodeGyrix 0x2A11000A = .error .fieldKind ∧ decodeGyrix 0x93F40200 = .error .fieldKind :=
  ⟨rfl, rfl, rfl, rfl, rfl⟩

theorem test_decode_mode_and_moves :
    decodeGyrix 0x00000000 = .ok .nop
    ∧ decodeGyrix 0x01008123 = .ok (.model 0x8123)
    ∧ decodeGyrix 0x02000006 = .ok (.modeh 6)
    ∧ decodeGyrix 0x03000600 = .ok (.modev 6)
    ∧ decodeGyrix 0x04068123 = .ok (.getsr 6 0x8123)
    ∧ decodeGyrix 0x05068123 = .ok (.setsr 6 0x8123)
    ∧ decodeGyrix 0x06068123 = .ok (.ldi 6 0x8123)
    ∧ decodeGyrix 0x07068123 = .ok (.ldih 6 0x8123)
    ∧ decodeGyrix 0x08068123 = .ok (.pcrel 3 0x8123)
    ∧ decodeGyrix 0x09068123 = .ok (.cbase 3 0x8123)
    ∧ decodeGyrix 0x0A060A00 = .ok (.mov 6 10)
    ∧ decodeGyrix 0x0B060A0E = .ok (.sel 6 10 14) :=
  ⟨rfl, rfl, rfl, rfl, rfl, rfl, rfl, rfl, rfl, rfl, rfl, rfl⟩

theorem test_decode_integer :
    decodeGyrix 0x10060A0E = .ok (.add 6 10 14)
    ∧ decodeGyrix 0x11060A0E = .ok (.sub 6 10 14)
    ∧ decodeGyrix 0x12060A0E = .ok (.mul 6 10 14)
    ∧ decodeGyrix 0x13060A0E = .ok (.mulh 6 10 14)
    ∧ decodeGyrix 0x14060A0E = .ok (.mad 6 10 14)
    ∧ decodeGyrix 0x15060A0E = .ok (.min 6 10 14)
    ∧ decodeGyrix 0x16060A0E = .ok (.max 6 10 14)
    ∧ decodeGyrix 0x17060A00 = .ok (.abs 6 10)
    ∧ decodeGyrix 0x18060A00 = .ok (.neg 6 10)
    ∧ decodeGyrix 0x19060A0E = .ok (.and 6 10 14)
    ∧ decodeGyrix 0x1A060A0E = .ok (.or 6 10 14)
    ∧ decodeGyrix 0x1B060A0E = .ok (.xor 6 10 14)
    ∧ decodeGyrix 0x1C060A00 = .ok (.not 6 10)
    ∧ decodeGyrix 0x1D060A0E = .ok (.shl 6 10 14)
    ∧ decodeGyrix 0x1E060A0E = .ok (.shr 6 10 14)
    ∧ decodeGyrix 0x1F060A00 = .ok (.clz 6 10)
    ∧ decodeGyrix 0x20060A00 = .ok (.popc 6 10)
    ∧ decodeGyrix 0x21060A0E = .ok (.bfe 6 10 14)
    ∧ decodeGyrix 0x22060A0E = .ok (.bfi 6 10 14)
    ∧ decodeGyrix 0x23060A0E = .ok (.addi 6 10 14)
    ∧ decodeGyrix 0x24060A2C = .ok (.shli 6 10 44)
    ∧ decodeGyrix 0x25060A2C = .ok (.shri 6 10 44)
    ∧ decodeGyrix 0x26060A0E = .ok (.andi 6 10 14)
    ∧ decodeGyrix 0x27060A0E = .ok (.muli 6 10 14) :=
  ⟨rfl, rfl, rfl, rfl, rfl, rfl, rfl, rfl, rfl, rfl, rfl, rfl, rfl, rfl, rfl, rfl, rfl, rfl, rfl, rfl, rfl, rfl, rfl, rfl⟩

theorem test_decode_address :
    decodeGyrix 0x28060A0E = .ok (.adda 3 5 14)
    ∧ decodeGyrix 0x29060A0E = .ok (.lea2 3 5 14)
    ∧ decodeGyrix 0x2A060A0E = .ok (.lea4 3 5 14)
    ∧ decodeGyrix 0x2B060A0E = .ok (.lea8 3 5 14)
    ∧ decodeGyrix 0x2C060A0E = .ok (.suba 6 5 7) :=
  ⟨rfl, rfl, rfl, rfl, rfl⟩

theorem test_decode_compares_and_predicates :
    decodeGyrix 0x40050A0E = .ok (.cmpeq 5 10 14)
    ∧ decodeGyrix 0x41050A0E = .ok (.cmpne 5 10 14)
    ∧ decodeGyrix 0x42050A0E = .ok (.cmplt 5 10 14)
    ∧ decodeGyrix 0x43050A0E = .ok (.cmple 5 10 14)
    ∧ decodeGyrix 0x44050A0E = .ok (.cmpgt 5 10 14)
    ∧ decodeGyrix 0x45050A0E = .ok (.cmpge 5 10 14)
    ∧ decodeGyrix 0x46050A0E = .ok (.cmpun 5 10 14)
    ∧ decodeGyrix 0x47050306 = .ok (.pand 5 3 6)
    ∧ decodeGyrix 0x48050306 = .ok (.por 5 3 6)
    ∧ decodeGyrix 0x49050306 = .ok (.pxor 5 3 6)
    ∧ decodeGyrix 0x4A050300 = .ok (.pnot 5 3)
    ∧ decodeGyrix 0x4B060300 = .ok (.ballot 6 3)
    ∧ decodeGyrix 0x4C050A00 = .ok (.pfrom 5 10) :=
  ⟨rfl, rfl, rfl, rfl, rfl, rfl, rfl, rfl, rfl, rfl, rfl, rfl, rfl⟩

theorem test_decode_lanes :
    decodeGyrix 0x4D060A00 = .ok (.shape 6 10)
    ∧ decodeGyrix 0x4E060A00 = .ok (.expand 6 10)
    ∧ decodeGyrix 0x4F060000 = .ok (.laneid 6)
    ∧ decodeGyrix 0x50060A0E = .ok (.readlane 6 10 14)
    ∧ decodeGyrix 0x51060A0E = .ok (.shfl 6 10 14)
    ∧ decodeGyrix 0x52060A15 = .ok (.shflup 6 10 21)
    ∧ decodeGyrix 0x53060A15 = .ok (.shfldn 6 10 21)
    ∧ decodeGyrix 0x54060A15 = .ok (.shflx 6 10 21)
    ∧ decodeGyrix 0x55060A00 = .ok (.vconflict 6 10)
    ∧ decodeGyrix 0x56060A00 = .ok (.scanadd 6 10)
    ∧ decodeGyrix 0x57060A00 = .ok (.redadd 6 10)
    ∧ decodeGyrix 0x58060A00 = .ok (.redmin 6 10)
    ∧ decodeGyrix 0x59060A00 = .ok (.redmax 6 10)
    ∧ decodeGyrix 0x5A060A00 = .ok (.compact 6 10) :=
  ⟨rfl, rfl, rfl, rfl, rfl, rfl, rfl, rfl, rfl, rfl, rfl, rfl, rfl, rfl⟩

theorem test_decode_floats :
    decodeGyrix 0x60060A0E = .ok (.fadd 6 10 14)
    ∧ decodeGyrix 0x61060A0E = .ok (.fsub 6 10 14)
    ∧ decodeGyrix 0x62060A0E = .ok (.fmul 6 10 14)
    ∧ decodeGyrix 0x63060A0E = .ok (.fma 6 10 14)
    ∧ decodeGyrix 0x64060A0E = .ok (.fmin 6 10 14)
    ∧ decodeGyrix 0x65060A0E = .ok (.fmax 6 10 14)
    ∧ decodeGyrix 0x66060A00 = .ok (.fabs 6 10)
    ∧ decodeGyrix 0x67060A00 = .ok (.fneg 6 10)
    ∧ decodeGyrix 0x68060A00 = .ok (.frcp 6 10)
    ∧ decodeGyrix 0x69060A00 = .ok (.frsq 6 10)
    ∧ decodeGyrix 0x6A060A00 = .ok (.fsqrt 6 10)
    ∧ decodeGyrix 0x6B060A00 = .ok (.fexp2 6 10)
    ∧ decodeGyrix 0x6C060A00 = .ok (.flog2 6 10)
    ∧ decodeGyrix 0x6D060A00 = .ok (.fsinpi 6 10)
    ∧ decodeGyrix 0x6E060A00 = .ok (.fcospi 6 10)
    ∧ decodeGyrix 0x6F060A00 = .ok (.frnd 6 10)
    ∧ decodeGyrix 0x70060A00 = .ok (.fclass 6 10)
    ∧ decodeGyrix 0x71060A0E = .ok (.fdot2 6 10 14)
    ∧ decodeGyrix 0x72060A00 = .ok (.cvt 6 10)
    ∧ decodeGyrix 0x73060A0E = .ok (.pack 6 10 14)
    ∧ decodeGyrix 0x74060A02 = .ok (.unpk 6 10 2)
    ∧ decodeGyrix 0x75060A0E = .ok (.fdiv 6 10 14) :=
  ⟨rfl, rfl, rfl, rfl, rfl, rfl, rfl, rfl, rfl, rfl, rfl, rfl, rfl, rfl, rfl, rfl, rfl, rfl, rfl, rfl, rfl, rfl⟩

theorem test_decode_control :
    decodeGyrix 0x80FFFFFB = .ok (.bra 0xfffffb)
    ∧ decodeGyrix 0x81FFFFFB = .ok (.brc 0xfffffb)
    ∧ decodeGyrix 0x82FFFFFB = .ok (.brca 0xfffffb)
    ∧ decodeGyrix 0x83FFFFFB = .ok (.call 0xfffffb)
    ∧ decodeGyrix 0x84000600 = .ok (.callr 3)
    ∧ decodeGyrix 0x85000000 = .ok .ret
    ∧ decodeGyrix 0x86000600 = .ok (.jmpr 3) :=
  ⟨rfl, rfl, rfl, rfl, rfl, rfl, rfl⟩

theorem test_decode_divergence :
    decodeGyrix 0x87FFFFFB = .ok (.ifLanes 0xfffffb)
    ∧ decodeGyrix 0x88FFFFFB = .ok (.elseLanes 0xfffffb)
    ∧ decodeGyrix 0x89000000 = .ok .endIf
    ∧ decodeGyrix 0x8AFFFFFB = .ok (.loopLanes 0xfffffb)
    ∧ decodeGyrix 0x8BFFFFFB = .ok (.breakLanes 0xfffffb)
    ∧ decodeGyrix 0x8CFFFFFB = .ok (.contLanes 0xfffffb)
    ∧ decodeGyrix 0x8DFFFFFB = .ok (.endLoop 0xfffffb) :=
  ⟨rfl, rfl, rfl, rfl, rfl, rfl, rfl⟩

theorem test_decode_wave_life :
    decodeGyrix 0x8E000000 = .ok .exit
    ∧ decodeGyrix 0x8F000000 = .ok .trig
    ∧ decodeGyrix 0x9000060A = .ok (.spawn 3 10)
    ∧ decodeGyrix 0x91000600 = .ok (.suspend 3)
    ∧ decodeGyrix 0x92000600 = .ok (.join 3)
    ∧ decodeGyrix 0x93060A00 = .ok (.deq 6 10)
    ∧ decodeGyrix 0x94060A0E = .ok (.enq 6 5 14)
    ∧ decodeGyrix 0x95000000 = .ok .yield
    ∧ decodeGyrix 0x96000003 = .ok (.bar 3) :=
  ⟨rfl, rfl, rfl, rfl, rfl, rfl, rfl, rfl, rfl⟩

theorem test_decode_loads_and_stores :
    decodeGyrix 0xA0060A0E = .ok (.ld 6 5 14)
    ∧ decodeGyrix 0xA1060A0E = .ok (.ldx 6 5 14)
    ∧ decodeGyrix 0xA2060A0E = .ok (.st 6 5 14)
    ∧ decodeGyrix 0xA3060A0E = .ok (.stx 6 5 14)
    ∧ decodeGyrix 0xA4060A0E = .ok (.lds 6 10 14)
    ∧ decodeGyrix 0xA5060A0E = .ok (.sts 6 10 14)
    ∧ decodeGyrix 0xA600060A = .ok (.pref 3 10)
    ∧ decodeGyrix 0xA7060A0E = .ok (.ldz 6 5 14)
    ∧ decodeGyrix 0xA8060A0E = .ok (.stz 6 5 14)
    ∧ decodeGyrix 0xA9060A0E = .ok (.aadd 6 5 14) :=
  ⟨rfl, rfl, rfl, rfl, rfl, rfl, rfl, rfl, rfl, rfl⟩

theorem test_decode_atomics :
    decodeGyrix 0xAA060A0E = .ok (.amin 6 5 14)
    ∧ decodeGyrix 0xAB060A0E = .ok (.amax 6 5 14)
    ∧ decodeGyrix 0xAC060A0E = .ok (.aand 6 5 14)
    ∧ decodeGyrix 0xAD060A0E = .ok (.aor 6 5 14)
    ∧ decodeGyrix 0xAE060A0E = .ok (.axor 6 5 14)
    ∧ decodeGyrix 0xAF060A0E = .ok (.axchg 6 5 14)
    ∧ decodeGyrix 0xB0060A0E = .ok (.acas 6 5 14) :=
  ⟨rfl, rfl, rfl, rfl, rfl, rfl, rfl⟩

theorem test_decode_fences_and_objects :
    decodeGyrix 0xB20000A3 = .ok (.fence 3 4 false true)
    ∧ decodeGyrix 0xB3000600 = .ok (.publish 3)
    ∧ decodeGyrix 0xB4060A00 = .ok (.arrive 6 10)
    ∧ decodeGyrix 0xB5060A0E = .ok (.arrivetx 6 10 14)
    ∧ decodeGyrix 0xB600060A = .ok (.waitph 6 10) :=
  ⟨rfl, rfl, rfl, rfl, rfl⟩

theorem test_decode_copies_and_gathers :
    decodeGyrix 0xC0000A15 = .ok (.cpyset 5 5 2)
    ∧ decodeGyrix 0xC1060002 = .ok (.cpygo 6 2)
    ∧ decodeGyrix 0xC2000602 = .ok (.waitid 6 2)
    ∧ decodeGyrix 0xC3060A0E = .ok (.rgather 6 5 14)
    ∧ decodeGyrix 0xC4060A0E = .ok (.rscat 6 5 14)
    ∧ decodeGyrix 0xC5060A0E = .ok (.rscatadd 6 5 14)
    ∧ decodeGyrix 0xC6060A0E = .ok (.coll 6 5 14) :=
  ⟨rfl, rfl, rfl, rfl, rfl, rfl, rfl⟩

theorem test_decode_matrix :
    decodeGyrix 0xD04D0A0E = .ok (.mma 5 9 5 7)
    ∧ decodeGyrix 0xD14D0A0E = .ok (.mmap 5 9 5 7)
    ∧ decodeGyrix 0xD2060000 = .ok (.mxfence 6)
    ∧ decodeGyrix 0xD3000600 = .ok (.mxwait 6)
    ∧ decodeGyrix 0xD4000006 = .ok (.acswap 6)
    ∧ decodeGyrix 0xD5060A06 = .ok (.acld 6 10 6)
    ∧ decodeGyrix 0xD6060A06 = .ok (.acst 6 10 6)
    ∧ decodeGyrix 0xD7000006 = .ok (.aczero 6)
    ∧ decodeGyrix 0xD8000603 = .ok (.acdrain 3 3)
    ∧ decodeGyrix 0xD9050A06 = .ok (.sacc 5 10 6)
    ∧ decodeGyrix 0xDA000602 = .ok (.cbload 3 2)
    ∧ decodeGyrix 0xDB050A00 = .ok (.mxredx 5 10)
    ∧ decodeGyrix 0xDC000000 = .ok .rcfence :=
  ⟨rfl, rfl, rfl, rfl, rfl, rfl, rfl, rfl, rfl, rfl, rfl, rfl, rfl⟩

theorem test_decode_bolter_and_projections :
    decodeGyrix 0xE0000601 = .ok (.taload 3 1)
    ∧ decodeGyrix 0xE1050A0E = .ok (.taeval 5 5 14)
    ∧ decodeGyrix 0xE2060A0E = .ok (.leafgather 6 5 14)
    ∧ decodeGyrix 0xE3060A0E = .ok (.sgnproj 6 5 14) :=
  ⟨rfl, rfl, rfl, rfl⟩

theorem test_decode_launches :
    decodeGyrix 0xE8060A0E = .ok (.tlaunch 6 5 14)
    ∧ decodeGyrix 0xE9060000 = .ok (.cqpop 3)
    ∧ decodeGyrix 0xEA000600 = .ok (.cqwait 6) :=
  ⟨rfl, rfl, rfl⟩

theorem test_decode_sampler_and_coverage :
    decodeGyrix 0xF0060A0E = .ok (.ldlod 3 5 14)
    ∧ decodeGyrix 0xF1060A0E = .ok (.sample 6 5 14)
    ∧ decodeGyrix 0xF2000600 = .ok (.primemit 3)
    ∧ decodeGyrix 0xF3060A00 = .ok (.visrd 6 10) :=
  ⟨rfl, rfl, rfl, rfl⟩

theorem test_decode_traps :
    decodeGyrix 0xF8008123 = .ok (.trap 0x8123)
    ∧ decodeGyrix 0xF9008123 = .ok (.brk 0x8123)
    ∧ decodeGyrix 0xFA000000 = .ok .rte :=
  ⟨rfl, rfl, rfl⟩

theorem test_decode_walker_nodes :
    decodeGts 0x040C0000 = .ok (.nfetch 3)
    ∧ decodeGts 0x08C00000 = .ok (.ndec 3)
    ∧ decodeGts 0x0CD4000D = .ok (.nfield 3 5 13)
    ∧ decodeGts 0x10D40000 = .ok (.nchild 3 5)
    ∧ decodeGts 0x14D40000 = .ok (.boxt 3 5)
    ∧ decodeGts 0x18D40000 = .ok (.trit 3 5)
    ∧ decodeGts 0x1CD40000 = .ok (.frust 3 5)
    ∧ decodeGts 0x20D40001 = .ok (.kcmp 3 5 1)
    ∧ decodeGts 0x24D64000 = .ok (.krange 3 5 9)
    ∧ decodeGts 0x28D65301 = .ok (.dist 3 5 9 1 0x301)
    ∧ decodeGts 0x2CD64000 = .ok (.topk 3 5 9)
    ∧ decodeGts 0x48D43FF9 = .ok (.ldn 3 5 0x3ff9) :=
  ⟨rfl, rfl, rfl, rfl, rfl, rfl, rfl, rfl, rfl, rfl, rfl, rfl⟩

theorem test_decode_walker_stack_and_records :
    decodeGts 0x300D4000 = .ok (.push 3 5)
    ∧ decodeGts 0x340D4001 = .ok (.pushm 3 5 1)
    ∧ decodeGts 0x38C00000 = .ok (.pop 3)
    ∧ decodeGts 0x3CC00000 = .ok (.stkd 3)
    ∧ decodeGts 0x40C00018 = .ok (.ldq 3 1 8)
    ∧ decodeGts 0x440C0018 = .ok (.stq 3 1 8) :=
  ⟨rfl, rfl, rfl, rfl, rfl, rfl⟩

theorem test_decode_walker_arithmetic :
    decodeGts 0x4CD64000 = .ok (.gtsAdd 3 5 9)
    ∧ decodeGts 0x4CD43FFB = .ok (.gtsAddImm 3 5 0x1ffb)
    ∧ decodeGts 0x50D64000 = .ok (.gtsSub 3 5 9)
    ∧ decodeGts 0x50D43FFB = .ok (.gtsSubImm 3 5 0x1ffb)
    ∧ decodeGts 0x54D64000 = .ok (.gtsMul 3 5 9)
    ∧ decodeGts 0x54D43FFB = .ok (.gtsMulImm 3 5 0x1ffb)
    ∧ decodeGts 0x58D64000 = .ok (.gtsAnd 3 5 9)
    ∧ decodeGts 0x58D43FFB = .ok (.gtsAndImm 3 5 0x1ffb)
    ∧ decodeGts 0x5CD64000 = .ok (.gtsOr 3 5 9)
    ∧ decodeGts 0x5CD43FFB = .ok (.gtsOrImm 3 5 0x1ffb)
    ∧ decodeGts 0x60D64000 = .ok (.gtsXor 3 5 9)
    ∧ decodeGts 0x60D43FFB = .ok (.gtsXorImm 3 5 0x1ffb)
    ∧ decodeGts 0x64D64000 = .ok (.gtsShl 3 5 9)
    ∧ decodeGts 0x64D43FFB = .ok (.gtsShlImm 3 5 0x1ffb)
    ∧ decodeGts 0x68D64000 = .ok (.gtsShr 3 5 9)
    ∧ decodeGts 0x68D43FFB = .ok (.gtsShrImm 3 5 0x1ffb)
    ∧ decodeGts 0x6CD40000 = .ok (.gtsMov 3 5)
    ∧ decodeGts 0x70C03FF9 = .ok (.gtsLdi 3 0x3ff9)
    ∧ decodeGts 0x740D4006 = .ok (.gtsCmp 3 5 6)
    ∧ decodeGts 0x78003FF9 = .ok (.jump 0x3ff9)
    ∧ decodeGts 0x7C003FF9 = .ok (.jumpF 0x3ff9)
    ∧ decodeGts 0x80003FF9 = .ok (.jumpNF 0x3ff9) :=
  ⟨rfl, rfl, rfl, rfl, rfl, rfl, rfl, rfl, rfl, rfl, rfl, rfl, rfl, rfl, rfl, rfl, rfl, rfl, rfl, rfl, rfl, rfl⟩

theorem test_decode_walker_posts :
    decodeGts 0x840C0000 = .ok (.emit 3)
    ∧ decodeGts 0x880C3FF9 = .ok (.hook 3 0x3ff9)
    ∧ decodeGts 0x8C0C0000 = .ok (.done 3)
    ∧ decodeGts 0x900D4000 = .ok (.cover 3 5)
    ∧ decodeGts 0x940C0000 = .ok (.handoff 3) :=
  ⟨rfl, rfl, rfl, rfl, rfl⟩



/-! ### A small machine -/

/-- A wave of privileged code with every register 0, at address 0x1000. -/
def wave0 : Wave :=
  { uid := 1, block := 7, waveId := 0, wsPriv := true, fp := 0x10000, gbudget := 256, rseed := 1, pc := 0x1000, age := 0,
    stage := 0, prio := 0, wm := 0x40 }

/-- Its block: context 1 of pavilion 0, on core 0, with 8192 bytes of scratchpad. -/
def block0 : Block :=
  { pav := 0, ctx := 1, grid := 3, linear := 0, x := 0, y := 0, z := 0, gridDim := 0, stage := 0, paired := false, alive := [0],
    waves := 1, scratch := 8192, halves := [{ core := 0, base := 0, blockSlot := 0 }] }

/-- The heap triple of a core that maps the first megabyte to itself. -/
def heapCore : CoreState := { heapLimit := 0x100000 }

/-- Bytes of memory: numbers at addresses, each of a width. -/
def memOf (l : List (Nat × Nat × Nat)) : Memory := l.foldl (fun m x => m.writeLE x.1 x.2.1 x.2.2) []

/-- The machine in which that block runs one wave in slot 0. Its contexts' descriptors begin at 0x8000. -/
def world (w : Wave) (l : List (Nat × Nat × Nat) := []) : State :=
  { waves := [(0, w)], blocks := [(7, block0)], cores := [(0, heapCore)], pavs := [(0, { ctxtab := 0x8000, ctxcount := 2 })],
    mem := memOf l }

/-- A register file with some registers set. -/
def regsWith (l : List (Nat × Word)) : Regs :=
  l.foldl (fun R x => R.setIfInBounds x.1 (.u x.2)) (Vector.replicate 256 (.u 0))

theorem regsWith_u (l : List (Nat × Word)) (r : Reg) : ∃ x, rd (regsWith l) r = .u x := by
  have h (R : Regs) (hR : ∀ r : Reg, ∃ x, rd R r = .u x) : ∀ r : Reg, ∃ x, rd (l.foldl (fun R x => R.setIfInBounds x.1 (.u x.2)) R) r = .u x := by
    induction l generalizing R with
    | nil => exact hR
    | cons c t ih =>
      refine ih _ fun r => ?_
      unfold rd at hR ⊢
      rw [Vector.getElem_setIfInBounds]
      split
      · exact ⟨_, rfl⟩
      · exact hR r
  exact h _ (fun r => ⟨0, by simp [rd]⟩) r

theorem regsWith_pairs (l : List (Nat × Word)) : pairsOk (regsWith l) := by
  intro r x hr
  obtain ⟨y, hy⟩ := regsWith_u l r
  rw [hy] at hr
  cases hr

theorem runs_with (s : State) (w : Wave) (l : List (Nat × Word)) (hw : s.wave s.cur = some w) (hr : w.regs = regsWith l) : s.runs w :=
  ⟨hw, hr ▸ regsWith_pairs l⟩

/-- An answer that is a value. -/
def isOk {ε α : Type} : Except ε α → Bool
  | .ok _ => true
  | .error _ => false

theorem ok_of {ε α : Type} (x : Except ε α) (h : isOk x = true) : ∃ a, x = .ok a := by
  cases x with
  | ok a => exact ⟨a, rfl⟩
  | error e => cases h

theorem some_of {α : Type} (x : Option α) (h : x.isSome = true) : ∃ a, x = some a := Option.isSome_iff_exists.1 h

theorem any_of {α : Type} (x : Option α) (p : α → Bool) (h : x.any p = true) : ∃ a, x = some a ∧ p a = true := by
  cases x with
  | none => cases h
  | some a => exact ⟨a, rfl, h⟩

/-- Nothing stops these accesses, as a computation. -/
def passes (s : State) (kind : AccessKind) (l : List LaneAccess) : Bool :=
  l.all fun a => match a.spans with
    | .ok sp => sp.all fun x => !x.partner && !s.peerHalted (coreOf s.cur) x && (decide (kind = .write) || !s.spanPoisoned x)
    | .error _ => false

theorem clear_of (s : State) (kind : AccessKind) (l : List LaneAccess) (h : passes s kind l = true) : clear s kind l := by
  intro a ha
  have := List.all_eq_true.1 h a ha
  split at this
  · rename_i sp hsp
    refine ⟨sp, hsp, fun x hx => ?_⟩
    have := List.all_eq_true.1 this x hx
    simp only [Bool.and_eq_true, Bool.not_eq_true', Bool.or_eq_true, decide_eq_true_eq] at this
    exact ⟨this.1.1, this.1.2, fun hk => this.2.resolve_left hk⟩
  · cases this

/-- The spans of one access of the wave that executes. -/
def spansAt (s : State) (w : Wave) (kind : AccessKind) (va : DWord) (n : Nat) : List Span :=
  ({ lane := 0, va := va, spans := s.check (s.whoOf s.cur w) kind (kind == .atomic) va n : LaneAccess }).ok

theorem clearAt_of (s : State) (w : Wave) (kind : AccessKind) (va : DWord) (n : Nat)
    (h : passes s kind [{ lane := 0, va := va, spans := s.check (s.whoOf s.cur w) kind (kind == .atomic) va n }] = true) :
    clearAt s w kind va n (spansAt s w kind va n) := by
  obtain ⟨sp, hsp, hx⟩ := clear_of s kind _ h _ List.mem_cons_self
  refine ⟨?_, ?_⟩
  · unfold spansAt LaneAccess.ok; simp only at hsp ⊢; rw [hsp]
  · unfold spansAt LaneAccess.ok; simp only at hsp ⊢; rw [hsp]; exact hx

theorem ok_is {ε α : Type} [DecidableEq α] (x : Except ε α) (a : α)
    (h : (match x with | .ok b => decide (b = a) | .error _ => false) = true) : x = .ok a := by
  cases x with
  | ok b => simp only [decide_eq_true_eq] at h; rw [h]
  | error e => cases h


theorem witness_IntegerResults : ∃ x, (world wave0).runs wave0 ∧ wave0.roomFor 2 ∧ setInt (wmET wave0.wm) = true
    ∧ intRow wave0 (wmET wave0.wm) (.add 3 4 5) = some x ∧ x.fields.all (widened (wmET wave0.wm)) = true := by
  obtain ⟨x, h⟩ := any_of (intRow wave0 (wmET wave0.wm) (.add 3 4 5)) (fun x => x.fields.all (widened (wmET wave0.wm)))
    (by decide +kernel)
  exact ⟨x, runs_with _ _ [] rfl rfl, ⟨rfl, by decide⟩, by decide, h⟩

theorem witness_MoveResults : ((world wave0).runs wave0 ∧ wave0.roomFor 2 ∧ ∃ x, moveRow (world wave0) wave0 (.mov 3 4) = some x)
    ∧ wmET ({ wave0 with wm := 0xF0 } : Wave).wm = .b128 :=
  ⟨⟨runs_with _ _ [] rfl rfl, ⟨rfl, by decide⟩, some_of _ (by decide +kernel)⟩, by decide⟩

theorem witness_AddressResults : (world wave0).runs wave0 ∧ wave0.roomFor 2 ∧ ∃ x, addressRow wave0 (.adda 3 4 5) = some x :=
  ⟨runs_with _ _ [] rfl rfl, ⟨rfl, by decide⟩, some_of _ (by decide +kernel)⟩

theorem witness_CrossLaneResults : (world wave0).runs wave0 ∧ wave0.roomFor 2 ∧ ∃ x, crossRow wave0 (.shfl 3 4 5) = some x :=
  ⟨runs_with _ _ [] rfl rfl, ⟨rfl, by decide⟩, some_of _ (by decide +kernel)⟩

theorem witness_FoldResults : (world wave0).runs wave0 ∧ wave0.roomFor 2 ∧ ∃ x, foldRow wave0 (.scanadd 3 4) = some x :=
  ⟨runs_with _ _ [] rfl rfl, ⟨rfl, by decide⟩, some_of _ (by decide +kernel)⟩

/-- Rounding to nearest, and under SR. -/
theorem witness_FloatResults : wave0.roomFor 4
    ∧ (∃ x, floatRow { wave0 with wm := 0x00A0 } (.fadd 3 4 5) = some x ∧ (x.rounds && decide (wmRM 0x00A0 = 0)) = true)
    ∧ ∃ x, floatRow { wave0 with wm := 0x50A0 } (.fadd 3 4 5) = some x ∧ (x.rounds && decide (wmRM 0x50A0 = 5)) = true :=
  ⟨⟨rfl, by decide⟩, any_of _ _ (by decide +kernel), any_of _ _ (by decide +kernel)⟩

theorem witness_PredicateResults : (world wave0).wave (world wave0).cur = some wave0
    ∧ ∃ x, predRow wave0 (.cmpeq 1 4 5) = some x := ⟨rfl, some_of _ (by decide +kernel)⟩

/-- The last code that is legal and the first that is reserved, in each field. -/
theorem witness_ModeWrites : (∀ w, (world w).wave (world w).cur = some w)
    ∧ ((0x5000#16).extractLsb' 12 3).toNat ≤ 5 ∧ 5 < ((0x6000#16).extractLsb' 12 3).toNat
    ∧ ((0x2C#8).extractLsb' 0 3).toNat ≤ 4 ∧ ((0x2C#8).extractLsb' 3 3).toNat ≤ 5
    ∧ 4 < ((0x05#8).extractLsb' 0 3).toNat ∧ 5 < ((0x30#8).extractLsb' 3 3).toNat
    ∧ ({ wave0 with exec := 0 } : Wave).exec = 0 ∧ wave0.exec ≠ 0
    ∧ wmLegal (lane (regsWith [(3, 0x002C5000)]) 3 0) = true ∧ wmLegal (lane (regsWith [(3, 0x00050000)]) 3 0) = false :=
  ⟨fun _ => rfl, by decide, by decide, by decide, by decide, by decide, by decide, rfl, by decide, by decide +kernel,
    by decide +kernel⟩

/-- One value for each register that SETSR writes, read from a uniform register. -/
theorem witness_SetsrResults :
    (∀ n ∈ [0x000, 0x001, 0x003, 0x004, 0x00D, 0x00F, 0x040, 0x047, 0x050, 0x051, 0x052], srWritable n true = true)
    ∧ activeMask wave0 ≠ 0 ∧ activeMask { wave0 with exec := 0 } = 0
    ∧ wmLegal (loWord (srValue { wave0 with regs := regsWith [(4, 0x5040)] } 4 0)) = true
    ∧ loWord (srValue { wave0 with regs := regsWith [(4, 8)] } 4 0x00D) = 8
    ∧ loWord (srValue { wave0 with regs := regsWith [(4, 256)] } 4 0x00D) = 256 ∧ wave0.gused ≤ 8 := by decide +kernel

theorem witness_PrivilegedRegisters : ({ wave0 with wsPriv := false } : Wave).wsPriv = false
    ∧ srAccess 0x040 = .privRw ∧ srAccess 0x001 = .status := by decide

theorem witness_ControlTransfers :
    ([.bra 4, .brc 4, .brca 4, .call 4, .callr 2, .ret, .jmpr 2].all fun i => (controlRow wave0 i).isSome) = true
    ∧ (pairLane (regsWith [(4, 2)]) 2 0).extractLsb' 0 2 ≠ 0 ∧ ({ wave0 with lr := 1 } : Wave).lr.extractLsb' 0 2 ≠ 0 := by
  decide +kernel

/-- A wave in an IF, and one in a LOOP. -/
def inIf : Wave := { wave0 with depth := 1, masks := [entry 0xFFFFFFFF 0xFF] }
def inLoop : Wave := { wave0 with depth := 1, masks := [entry 0xFFFFFFFF 0xFF], kinds := 1 }

theorem witness_Divergence :
    (∀ w ∈ [wave0, inIf, inLoop], w.depth = w.masks.length ∧ w.depth ≤ 16)
    ∧ ([.ifLanes 4, .loopLanes 4].all fun i => (divergeRow wave0 i).isSome) = true
    ∧ ([.elseLanes 4, .endIf].all fun i => (divergeRow inIf i).isSome) = true
    ∧ ([.breakLanes 4, .contLanes 4, .endLoop 4].all fun i => (divergeRow inLoop i).isSome) = true
    ∧ (divergeRow { wave0 with depth := 15, masks := List.replicate 15 0 } (.ifLanes 4)).isSome = true
    ∧ 64 ≤ ({ wave0 with depth := 64 } : Wave).depth := by decide +kernel

theorem witness_TrapInstructions : activeMask wave0 ≠ 0 ∧ activeMask { wave0 with exec := 0 } = 0 := by decide

/-- A context whose handler takes every trap, with its save areas at 0x20000. -/
def handling : List (Nat × Nat × Nat) := [(0x8170, 8, 0x4000), (0x8178, 4, 0xFFFFFFFF), (0x817C, 1, 1), (0x8180, 8, 0x20000)]

theorem witness_HandlerEntry : ∃ s₁, (world wave0 handling).saveImage 0 { wave0 with
      wsCause := 0x13, wsPast := 0, trapCause := 0x13, trapPc := wave0.pc, trapLanes := 0, trapAddr := 0, owed := [],
      wait := .none, heldTrap := none, answers := [], watchHit := none, mxCheck := none }
      ((world wave0 handling).saveArea 0 1 0) 0x13 = some s₁ :=
  some_of _ (by decide +kernel)

theorem witness_HandlerEntry_handles : wave0.log = [] ∧ wave0.trapLog = 0 ∧ handles (world wave0 handling) 0 wave0 .stackDepth :=
  ⟨rfl, rfl, by decide, by decide +kernel, fun h => (by rcases h with h | h | h <;> cases h), by decide +kernel, rfl, by decide +kernel⟩

/-- FLAGS.TERMINATE, a handler that runs, and a clear TRAPMASK bit; and an open log entry. -/
def saved0 : SavedWave := { depth := 0, kinds := 0, step := false, priv := true, log := [] }
def entry0 : LogEntry :=
  { pc := 0x1000, instr := .ld 3 2 0, word := 0xA0030400, wm := 4, lanes := 1, exec := 1, failLanes := 1, sources := [],
    faddr := 0x2000, fltid := some 5, state := .pending, past := 0, holds := false }

theorem witness_TrapTermination :
    (world wave0 [(0x817C, 1, 9)]).ctxField 0 1 124 1 / 8 % 2 = 1 ∧ ({ wave0 with handler := some saved0 } : Wave).handler.isSome
    ∧ (world wave0).ctxField 0 1 120 4 / 2 ^ Cause.align.code % 2 = 0
    ∧ (∀ c : Cause, c = .breakpoint → (world wave0).attached 0 0 1 = false)
    ∧ ({ wave0 with log := [entry0] } : Wave).log ≠ []
    ∧ (world wave0).descPoison 0 1 = none ∧ ({ world wave0 with poisoned := [516] } : State).descPoison 0 1 = some 0x8100 := by
  refine ⟨by decide +kernel, rfl, by decide +kernel, fun _ _ => by decide +kernel, by simp, by decide +kernel, by decide +kernel⟩

/-- What an area reads, as a computation; a read of no bytes gives none. -/
def areaBytes (s : State) (who : Who) (area off n : Nat) : Option (List Byte) :=
  if n = 0 then some []
  else match s.resolve who .read false (area + off) n with
    | .ok l => if l.all fun x => !x.partner && !s.spanPoisoned x then some (s.loadSpans who.uid l) else none
    | .error _ => none

theorem areaReads_of (s : State) (who : Who) (area off n : Nat) (bs : List Byte) (h : areaBytes s who area off n = some bs) :
    areaReads s who area off n bs := by
  unfold areaBytes at h
  unfold areaReads
  by_cases hn : n = 0
  · simp only [hn, if_true, Option.some.injEq] at h ⊢
    exact h.symm
  · simp only [hn, if_false] at h ⊢
    cases hl : s.resolve who .read false (area + off) n with
    | error e => rw [hl] at h; cases h
    | ok l =>
      rw [hl] at h
      simp only [Option.ite_none_right_eq_some, List.all_eq_true, Option.some.injEq] at h
      exact ⟨l, rfl, fun x hx => by simpa using h.1 x hx, h.2.symm⟩

/-- The image of an area, where it reads. -/
def imageAt (s : State) (who : Who) (area : Nat) (saved : SavedWave) : Option SavedImage :=
  (areaBytes s who area 0 108).bind fun head => (areaBytes s who area 256 2112).bind fun mid =>
    let rows := fieldOf head 48 4
    (areaBytes s who area 2368 (128 * rows)).bind fun r =>
      (areaBytes s who area (2368 + 128 * (rows + fieldOf head 30 1 / 16 % 16))
        (128 * (retainedRows saved.log).length + 8 * Nat.min saved.depth 16)).bind fun last =>
        (areaBytes s who area 0x8C00 256).map fun shadow => { head := head, mid := mid, rows := r, last := last, shadow := shadow }

theorem imageReads_of (s : State) (who : Who) (area : Nat) (saved : SavedWave) (im : SavedImage) (h : imageAt s who area saved = some im) :
    imageReads s who area saved im := by
  unfold imageAt at h
  simp only [Option.bind_eq_some_iff, Option.map_eq_some_iff] at h
  obtain ⟨head, h1, mid, h2, r, h3, last, h4, shadow, h5, rfl⟩ := h
  exact ⟨areaReads_of _ _ _ _ _ _ h1, areaReads_of _ _ _ _ _ _ h2, areaReads_of _ _ _ _ _ _ h3, areaReads_of _ _ _ _ _ _ h4,
    areaReads_of _ _ _ _ _ _ h5⟩

/-- A wave in the handler of a trap that was saved with a mask entry, and its machine, whose save area holds an image of which the
register v4 has a row; with RETPC, the row count and the first tag byte as given. -/
def saved1 : SavedWave := { saved0 with depth := 1 }
def waveR : Wave := { wave0 with handler := some saved1 }
def restoring (pc rows tags : Nat) : State :=
  world waveR [(0x8180, 8, 0x20000), (0x20000, 8, pc), (0x20030, 4, rows), (0x20000 + 2304 + 1, 1, tags)]
/-- The rules of an image, as a computation. -/
def legal (im : SavedImage) : Bool :=
  decide (fieldOf im.head 48 4 + (retainedRows saved1.log).length ≤ waveR.gbudget.toNat)
    && decide (((List.range 256).filter fun r => imageTag im.mid r == 2).length = fieldOf im.head 48 4)
    && (List.range 256).all (fun r => imageTag im.mid r != 3 || (r % 2 == 1 && imageTag im.mid (r - 1) == 1))
    && wmLegal (BitVec.ofNat 32 (fieldOf im.head 36 4))

theorem legal_iff (im : SavedImage) : legal im = true ↔ imageLegal im waveR.gbudget.toNat (retainedRows saved1.log).length := by
  simp only [legal, imageLegal, Bool.and_eq_true, decide_eq_true_eq, List.all_eq_true, List.mem_range, Bool.or_eq_true, bne_iff_ne, beq_iff_eq,
    and_assoc, ← Decidable.imp_iff_not_or, ne_eq]

theorem witness_ReturnFromTrap :
    (∃ w : Wave, w.wsPriv = false) ∧ (wave0.wsPriv = true ∧ wave0.handler = none)
    ∧ (∃ im, imageReads (restoring 0x1004 1 2) ((restoring 0x1004 1 2).whoOf 0 waveR) 0x20000 saved1 im
      ∧ imageLegal im waveR.gbudget.toNat (retainedRows saved1.log).length ∧ fieldOf im.head 0 8 % 4 = 0)
    ∧ (∃ im, imageReads (restoring 0x1002 1 2) ((restoring 0x1002 1 2).whoOf 0 waveR) 0x20000 saved1 im
      ∧ imageLegal im waveR.gbudget.toNat (retainedRows saved1.log).length ∧ fieldOf im.head 0 8 % 4 ≠ 0)
    ∧ (∃ im, imageReads (restoring 0x1004 0 2) ((restoring 0x1004 0 2).whoOf 0 waveR) 0x20000 saved1 im
      ∧ ¬ imageLegal im waveR.gbudget.toNat (retainedRows saved1.log).length)
    ∧ (restoring 0x1004 1 2).saveArea 0 1 0 = 0x20000 ∧ (restoring 0x1002 1 2).descPoison 0 1 = none
    ∧ (restoring 0x1004 0 2).descPoison 0 1 = none ∧ { waveR with wsStep := true }.handler = some saved1 := by
  have h (s : State) (p : SavedImage → Bool) (hp : (imageAt s (s.whoOf 0 waveR) 0x20000 saved1).any p = true) :
      ∃ im, imageReads s (s.whoOf 0 waveR) 0x20000 saved1 im ∧ p im = true := by
    obtain ⟨im, him, hp⟩ := any_of _ _ hp
    exact ⟨im, imageReads_of _ _ _ _ _ him, hp⟩
  refine ⟨⟨{ wave0 with wsPriv := false }, rfl⟩, ⟨rfl, rfl⟩, ?_, ?_, ?_, by decide +kernel, by decide +kernel, by decide +kernel, rfl⟩
  · obtain ⟨im, hr, hp⟩ := h (restoring 0x1004 1 2) (fun im => legal im && decide (fieldOf im.head 0 8 % 4 = 0)) (by decide +kernel)
    simp only [Bool.and_eq_true, decide_eq_true_eq, legal_iff] at hp
    exact ⟨im, hr, hp.1, hp.2⟩
  · obtain ⟨im, hr, hp⟩ := h (restoring 0x1002 1 2) (fun im => legal im && decide (fieldOf im.head 0 8 % 4 ≠ 0)) (by decide +kernel)
    simp only [Bool.and_eq_true, decide_eq_true_eq, legal_iff] at hp
    exact ⟨im, hr, hp.1, hp.2⟩
  · obtain ⟨im, hr, hp⟩ := h (restoring 0x1004 0 2) (fun im => !legal im) (by decide +kernel)
    rw [Bool.not_eq_true', ← Bool.not_eq_true, legal_iff] at hp
    exact ⟨im, hr, hp⟩

theorem witness_IllegalWords : decodeGyrix 0x0C000000 = .error .unassignedOpcode ∧ decodeGyrix 0x28030405 = .error .fieldKind
    ∧ decodeGyrix 0xFA000001 = .error .fieldKind := ⟨rfl, rfl, rfl⟩

/-- A wave whose pairs v4:v5 and v8:v9 hold 0x2000 and the first address of its own scratchpad window. -/
def regsM : List (Nat × Word) := [(4, 0x2000), (9, 0x100000), (10, 0x2001)]
def waveM (wm : Word) (act : Word := 0xFFFFFFFF) : Wave := { wave0 with wm := wm, exec := act, regs := regsWith regsM }

/-- What `writeRow` gives an instruction: the lanes, and the rows that its write is charged. -/
def charge (s : State) (w : Wave) (i : Instr) : Option (Word × Nat) :=
  (writeRow s w i).map fun x => (x.1.lanes, rowsAfter w.regs x.1 (shapeLeft x.1 x.2.2 (tableShape w i)) + (retainedRows w.log).length)

theorem charge_is (s : State) (w : Wave) (i : Instr) (lanes : Word) (n : Nat) (h : charge s w i = some (lanes, n)) :
    ∃ x, writeRow s w i = some x ∧ x.1.lanes = lanes
      ∧ rowsAfter w.regs x.1 (shapeLeft x.1 x.2.2 (tableShape w i)) + (retainedRows w.log).length = n := by
  unfold charge at h
  cases hr : writeRow s w i with
  | none => rw [hr] at h; cases h
  | some x =>
    rw [hr] at h
    simp only [Option.map_some, Option.some.injEq, Prod.mk.injEq] at h
    exact ⟨x, rfl, h.1, h.2⟩

/-- A wave of one lane with a budget of no rows. -/
def waveB : Wave := { waveM 0x40 1 with gbudget := 0 }

/-- Block `b` owns the unit of pair 0. -/
def unitWorldOf (b : Nat) : State := { world (waveM 0x40 1) with units := [(0, { owner := some b })] }

/-- A write of lane 0 beyond the budget, one of no lane, and one that fits. -/
theorem witness_RowsAndShapes : ((world waveB).runs waveB ∧ waveB.replay = none ∧ waveB.log = [])
    ∧ charge (world waveB) waveB (.ldi 3 7) = some (1, 1) ∧ waveB.gbudget.toNat < 1
    ∧ charge (world (waveM 0x40 0)) (waveM 0x40 0) (.addi 3 4 7) = some (0, 0)
    ∧ charge (world (waveM 0x40)) (waveM 0x40) (.addi 3 4 7) = some (0xFFFFFFFF, 0) ∧ 0 ≤ (waveM 0x40).gbudget.toNat :=
  ⟨⟨runs_with _ _ regsM rfl rfl, rfl, rfl⟩, by decide +kernel, by decide +kernel, by decide +kernel, by decide +kernel, Nat.zero_le _⟩

/-- A load of one lane, whose register needs a row, with the budget and with 256 rows. -/
theorem witness_RowsAndShapes_other : otherRow (world waveB) waveB (.ld 3 2 0) = some (1, [3], some .u)
    ∧ rowCount waveB.regs ≤ waveB.gbudget.toNat ∧ (world waveB).onlyWave { waveB with gbudget := 256 } = world { waveB with gbudget := 256 } :=
  ⟨by decide +kernel, by decide +kernel, rfl⟩
theorem witness_RowsAndShapes_row : (match exec (.ld 3 2 0) (world { waveB with gbudget := 256 }) with
    | .next t => (t.wave 0).any fun w' => decide (waveB.gbudget.toNat < rowCount w'.regs) && w'.retired
    | _ => false) = true := by decide +kernel
/-- `ACLD` where the block owns the unit. -/
theorem witness_RowsAndShapes_acld : (otherRow (unitWorldOf 7) (waveM 0x40 1) (.acld 3 9 0)).isSome = true
    ∧ ((unitWorldOf 7).unit (pairHere (unitWorldOf 7))).owner = some (waveM 0x40 1).block := ⟨by decide +kernel, rfl⟩

/-- `SETSR` of a GBUDGET: no multiple of 8, 0, beyond 256, and below what the wave uses. -/
def manyRows : Regs := (Vector.replicate 256 (.g (Vector.replicate 32 0))).setIfInBounds 6 (.u 8)
theorem witness_RowsAndShapes_budget : ((12#32).toNat % 8 ≠ 0 ∧ (0#32).toNat < 8 ∧ 256 < (264#32).toNat)
    ∧ lane manyRows 6 (lowestLane (activeMask wave0)) = 8 ∧ 8 < ({ wave0 with regs := manyRows } : Wave).gused :=
  ⟨by decide, by decide +kernel, by decide +kernel⟩

/-- A load and a store through a pair, and through the scratchpad, with an active lane and with none. -/
theorem witness_LoadResults : ∃ x y : Where, let w := waveM 0x40; let s := world w
    s.runs w ∧ w.roomFor 4 ∧ accessRow w (.ld 3 2 1) = some (true, 3, x) ∧ accessRow w (.lds 3 0 1) = some (true, 3, y)
    ∧ x.own = false ∧ clear s .read (s.whereAccesses (s.whoOf 0 w) .read (activeMask w) x 4)
    ∧ clear s .read (s.whereAccesses (s.whoOf 0 w) .read (activeMask w) y 4)
    ∧ s.rangeHeld (s.whoOf 0 w) (s.whereAccesses (s.whoOf 0 w) .read (activeMask w) y 4) = false
    ∧ setMem (wmET w.wm) = true ∧ widened (wmET w.wm) 3 = true ∧ activeMask w ≠ 0 ∧ activeMask (waveM 0x40 0) = 0
    ∧ ordersAny (s.whereAccesses (s.whoOf 0 w) .read (activeMask w) x 4) = true ∧ s.block (s.whoOf 0 w).block = some block0 :=
  ⟨(waveM 0x40).atImm 2 1, (waveM 0x40).atScratch 0 1, runs_with _ _ regsM rfl rfl, ⟨rfl, by decide +kernel⟩, rfl, rfl, rfl,
    clear_of _ _ _ (by decide +kernel), clear_of _ _ _ (by decide +kernel), by decide +kernel, by decide +kernel, by decide +kernel, by decide +kernel,
    by decide +kernel, by decide +kernel, rfl⟩

theorem witness_StoreResults : ∃ x y : Where, let w := waveM 0x40; let s := world w
    s.wave s.cur = some w ∧ accessRow w (.st 3 2 1) = some (false, 3, x) ∧ accessRow w (.sts 3 0 1) = some (false, 3, y)
    ∧ clear s .write (s.whereAccesses (s.whoOf 0 w) .write (activeMask w) x 4)
    ∧ clear s .write (s.whereAccesses (s.whoOf 0 w) .write (activeMask w) y 4)
    ∧ s.rangeHeld (s.whoOf 0 w) (s.whereAccesses (s.whoOf 0 w) .write (activeMask w) y 4) = false
    ∧ activeMask w ≠ 0 ∧ activeMask (waveM 0x40 0) = 0 ∧ ¬ underWay s 1 0x2000 :=
  ⟨(waveM 0x40).atImm 2 1, (waveM 0x40).atScratch 0 1, rfl, rfl, rfl,
    clear_of _ _ _ (by decide +kernel), clear_of _ _ _ (by decide +kernel), by decide +kernel, by decide +kernel, by decide +kernel,
    fun ⟨_, h, _⟩ => nomatch h⟩

theorem witness_AtomicResults : let w := waveM 0x40; let s := world w
    s.runs w ∧ w.roomFor 2 ∧ (∃ ok op, atomicRow w (.aadd 3 2 6) = some (ok, 3, 2, 6, op) ∧ ok (wmET w.wm) = true)
    ∧ clear s .atomic (s.laneAccesses (s.whoOf 0 w) .atomic true (activeMask w) (pairLane w.regs 2) 4)
    ∧ activeMask w ≠ 0 ∧ activeMask (waveM 0x40 0) = 0 :=
  ⟨runs_with _ _ regsM rfl rfl, ⟨rfl, by decide +kernel⟩, ⟨_, _, rfl, by decide +kernel⟩, clear_of _ _ _ (by decide +kernel), by decide +kernel, by decide +kernel⟩

/-- One lane's atomic at an odd address. -/
theorem witness_AccessTraps : ∃ l, judged (world (waveM 0x40 1)) (waveM 0x40 1) (.aadd 3 5 6) = some l
    ∧ decide ((l.map fun a => (a.lane, a.va, a.fail)) = [(0, 0x2001, some .unaligned)]) = true :=
  any_of _ _ (by decide +kernel)

theorem witness_FenceResults : let s := world wave0
    s.wave s.cur = some wave0 ∧ s.enginesOwed wave0.uid = false ∧ ¬ underWay s 1 0x2000
    ∧ ((4#3 = 4 ∧ 4 ≤ (4#3).toNat) ∧ ¬ (2#3 = 4 ∧ 4 ≤ (1#3).toNat) ∧ 2 ≤ (2#3).toNat ∧ (1#3) ≠ 0)
    ∧ s.block wave0.block = some block0 ∧ s.inPair (s.whoOf s.cur wave0) = false
    ∧ (let t : State := { s with colls := [{ id := 1, core := 0, pav := 0, ctx := 1, block := 7, uid := wave0.uid, die := 0, va := 0, page := 0, frame := 0, size := 0, ord := 1, offset := 0, ty := .n32,
                                             op := 0, sat := false, data := [] }] }
       t.wave t.cur = some wave0 ∧ t.enginesOwed wave0.uid = true)
    ∧ (4 ≤ (4#3).toNat ∧ s.samplersOwed s.cur = false)
    ∧ (let t : State := { s with waves := s.waves ++ [(1, { wave0 with uid := 2, log := [{ entry0 with instr := .ldlod 3 2 6, fabric := some 5 }] })] }
       t.wave t.cur = some wave0 ∧ t.enginesOwed wave0.uid = false ∧ t.samplersOwed t.cur = true) :=
  ⟨rfl, by decide +kernel, (fun ⟨_, h, _⟩ => nomatch h), by decide +kernel, rfl, by decide +kernel, ⟨rfl, by decide +kernel⟩, by decide +kernel,
    rfl, by decide +kernel, by decide +kernel⟩

/-- A structure of 4 elements at 0x2000 whose first is stored, with room for 27 more. -/
def chunk0 : Chunked := { count := 4, nz := 1, cap := 64, mask := 1 }
def chunkMem : List (Nat × Nat × Nat) := [(0x2000, 8, 4 + 2 ^ 16 + 64 * 2 ^ 32), (0x2008, 1, 1), (0x2009, 2, 0x3F80)]

theorem witness_ChunkResults : let w := waveM 0x90; let s := world w chunkMem
    s.runs w ∧ w.roomFor 2 ∧ wmET w.wm = .bf16 ∧ w.exec ≠ 0 ∧ (waveM 0x90 0).exec = 0
    ∧ (pairLane w.regs 2 w.leadLane).toNat % 8 = 0 ∧ (lane w.regs 7 w.leadLane).toNat = 0
    ∧ clearAt s w .read 0x2000 8 (spansAt s w .read 0x2000 8)
    ∧ readAt s w (spansAt s w .read 0x2000 8) = chunk0.count + chunk0.nz * 2 ^ 16 + chunk0.cap * 2 ^ 32
    ∧ clearAt s w .read 0x2008 1 (spansAt s w .read 0x2008 1) ∧ readAt s w (spansAt s w .read 0x2008 1) = chunk0.mask
    ∧ clearAt s w .read 0x2009 2 (spansAt s w .read 0x2009 2)
    ∧ clearAt s w .write 0x2008 1 (spansAt s w .write 0x2008 1)
    ∧ (((List.range 32).map fun n => if n < 4 then (lane w.regs 4 n).toNat % 2 ^ 16 else 0).filter fun y => y ≠ 0)
        = List.replicate 4 0x2000
    ∧ 9 + 2 * (1 + 4) ≤ chunk0.cap ∧ clearAt s w .write 0x200B 8 (spansAt s w .write 0x200B 8)
    ∧ clearAt s w .atomic 0x2002 2 (spansAt s w .atomic 0x2002 2) :=
  ⟨runs_with _ _ regsM rfl rfl, ⟨rfl, by decide +kernel⟩, by decide +kernel, by decide +kernel, rfl, by decide +kernel, by decide +kernel,
    clearAt_of _ _ _ _ _ (by decide +kernel), by decide +kernel, clearAt_of _ _ _ _ _ (by decide +kernel), by decide +kernel,
    clearAt_of _ _ _ _ _ (by decide +kernel), clearAt_of _ _ _ _ _ (by decide +kernel), by decide +kernel, by decide +kernel,
    clearAt_of _ _ _ _ _ (by decide +kernel), clearAt_of _ _ _ _ _ (by decide +kernel)⟩

/-- Tables of context 1 that map the page at 0x200000 as a publish window over the frame 0x400000. -/
def windowMem : List (Nat × Nat × Nat) := [(0x8100, 8, 0x10000), (0x10000, 8, 0x12001), (0x12000, 8, 0x14001), (0x14008, 8, 0x400117)]

theorem witness_Publish : let s := world wave0 windowMem
    globalEnd ≤ (0x10000000000000#64).toNat
    ∧ (∃ p, s.translate 0 0 1 0x2000 = .ok p ∧ p.pub = false) ∧ ∃ p, s.translate 0 0 1 0x200000 = .ok p ∧ p.pub = true :=
  ⟨by decide +kernel, ⟨_, rfl, rfl⟩,
    ⟨{ vbase := 0x200000, size := 0x200000, frame := 0x400000, r := true, w := true, x := false, ord := 1, cache := 0, pub := true,
       por := false }, by decide +kernel, rfl⟩⟩

/-- An object that expects one arrival, one whose carry is full, and one in phase 1. -/
theorem witness_CompletionObjects : let w := waveM 0x40; let k := scratchKey 0 0; let s := world w [(k + 4, 2, 1), (k + 6, 2, 1)]
    s.runs w ∧ w.roomFor 2 ∧ arriveRow w (.arrive 3 0) = some (3, 0, 0) ∧ (arriveRow w (.arrivetx 3 0 4)).isSome = true
    ∧ s.objectKey w.block (lane w.regs 0 w.leadLane).toNat = .ok k
    ∧ 0 < (s.object k).pendarr
    ∧ ((world w [(k + 12, 2, 65535)]).object k).pendarr = 0 ∧ ((world w [(k + 12, 2, 65535)]).object k).carry = 65535
    ∧ (s.object k).phase = lane w.regs 0 w.leadLane ∧ ((world w [(k, 4, 1)]).object k).phase ≠ lane w.regs 0 w.leadLane :=
  ⟨runs_with _ _ regsM rfl rfl, ⟨rfl, by decide +kernel⟩, rfl, rfl, ok_is _ _ (by decide +kernel), by decide +kernel, by decide +kernel, by decide +kernel,
    by decide +kernel, by decide +kernel⟩

theorem witness_Barriers : let s := world wave0; let x := { block0 with alive := [0, 1] }
    s.wave s.cur = some wave0 ∧ s.block wave0.block = some block0
    ∧ (∀ k ∈ block0.alive, k = s.cur ∨ k ∈ (block0.barriers[(5#4).toNat]?).getD [])
    ∧ (∀ k ∈ (block0.barriers[(5#4).toNat]?).getD [], k ≠ s.cur → ∃ v, s.wave k = some v)
    ∧ ∃ k ∈ x.alive, k ≠ s.cur ∧ k ∉ (x.barriers[(5#4).toNat]?).getD [] :=
  ⟨rfl, rfl, by decide +kernel, fun k h => by exact absurd h (by decide +revert), 1, by decide +kernel⟩

/-- Queue 2 of pavilion 0 created for records, and queue 3 for items, with rings at 0x3000 and 0x3400. -/
def queued (w : Wave) (l : List (Nat × Nat × Nat)) : State :=
  let desc : Assoc Line :=
    [(2, BitVec.ofNat 512 (0x3000 + 16 * 2 ^ 64 + 2 ^ 97)), (3, BitVec.ofNat 512 (0x3400 + 16 * 2 ^ 64 + 3 * 2 ^ 96))]
  { world w l with pavs := [(0, { ctxtab := 0x8000, ctxcount := 2, desc := desc, queues := [(3, { tail := 1 })] })] }

/-- A well-formed record of one wave at 0x2000. -/
def recordMem : List (Nat × Nat × Nat) := [(0x2000, 4, 0x4000), (0x2017, 1, 1)]

def waveQ : Wave := { waveM 0x40 1 with regs := regsWith [(4, 0x2000), (6, 2)] }
def waveD : Wave := { wave0 with regs := regsWith [(6, 3)] }

theorem witness_QueueAppends : let w := waveQ; let s := queued w recordMem
    s.runs w ∧ w.roomFor 2 ∧ recordsReadable s w 2 ∧ activeMask w ≠ 0 ∧ (laneRecords s w 2 6).length = 1
    ∧ (∀ y ∈ laneRecords s w 2 6, isCreated s 0 y.2.1 = true ∧ s.itemQueue 0 y.2.1 = false ∧ recordOk y.2.2 = true)
    ∧ (∀ q, s.queueCount 0 q + ((laneRecords s w 2 6).filter fun y => y.2.1 == q).length ≤ s.queueCap 0 q
        ∨ ∀ y ∈ laneRecords s w 2 6, y.2.1 ≠ q) := by
  have h : ∀ y ∈ laneRecords (queued waveQ recordMem)
      waveQ 2 6, y.2.1 = 2 := by decide +kernel
  refine ⟨runs_with _ _ [(4, 0x2000), (6, 2)] rfl rfl, ⟨rfl, by decide +kernel⟩, ⟨by decide +kernel, clear_of _ _ _ (by decide +kernel)⟩, by decide +kernel,
    by decide +kernel, by decide +kernel, fun q => ?_⟩
  by_cases hq : q = 2
  · subst hq; exact .inl (by decide +kernel)
  · exact .inr fun y hy => by rw [h y hy]; exact fun e => hq e.symm

theorem witness_Dequeue : let w := waveD; let s := queued w []
    s.runs w ∧ w.roomFor 32 ∧ (240#8).toNat ≤ 240 ∧ w.exec ≠ 0 ∧ (lane w.regs 6 (lowestLane w.exec)).toNat = 3
    ∧ isCreated s 0 3 = true ∧ s.itemQueue 0 3 = true ∧ (s.queue 0 3).tail ≠ (s.queue 0 3).head ∧ (s.queue 0 3).waiting = []
    ∧ isCreated s 0 256 = false ∧ s.itemQueue 0 2 = false
    ∧ s.headPoison 0 3 = none ∧ ({ s with poisoned := [0x34000 / 0x400] } : State).headPoison 0 3 = some 0x3400 :=
  ⟨runs_with _ _ [(6, 3)] rfl rfl, ⟨rfl, by decide +kernel⟩, by decide +kernel, by decide +kernel, by decide +kernel, by decide +kernel, by decide +kernel,
    by decide +kernel, by decide +kernel, by decide +kernel, by decide +kernel, by decide +kernel, by decide +kernel⟩

/-- Lanes left in `EXEC`, lanes left in the stack alone, and none. -/
theorem witness_Exits : wave0.depth = wave0.masks.length ∧ inIf.depth = inIf.masks.length
    ∧ (let w : Wave := { wave0 with wm := 1, preds := #v[0xFFFFFFFF, 1, 0, 0, 0, 0, 0, 0] }; w.exec &&& ~~~(activeMask w) ≠ 0)
    ∧ (let w : Wave := { inIf with exec := 1 }; w.exec &&& ~~~(activeMask w) = 0
      ∧ ∃ x ∈ w.masks.map (fun x => entry (loWord x &&& ~~~(activeMask w)) (hiWord x &&& ~~~(activeMask w))), x ≠ 0)
    ∧ (wave0.exec &&& ~~~(activeMask wave0) = 0 ∧ wave0.masks = []) :=
  ⟨rfl, rfl, by decide +kernel, ⟨by decide +kernel, _, List.mem_cons_self, by decide +kernel⟩, by decide +kernel, rfl⟩

theorem witness_TriggersAndYield : (world wave0).wave (world wave0).cur = some wave0 ∧ (world wave0).block 7 = some block0
    ∧ block0.triggered = false ∧ ({ block0 with triggered := true } : Block).triggered = true := ⟨rfl, rfl, rfl, rfl⟩

/-- A record whose join counter is 0, 1 and 2. -/
theorem witness_WaveEnds : let w := waveM 0x40; let s := world w recordMem
    s.wave s.cur = some w ∧ w.exec ≠ 0 ∧ (0x2000#64).toNat < globalEnd ∧ (0x2000#64).toNat % 64 = 0
    ∧ pairLane w.regs 2 (lowestLane w.exec) = 0x2000
    ∧ clearAt s w .read 0x2000 64 (spansAt s w .read 0x2000 64)
    ∧ recordOk (lineOf (s.loadSpans w.uid (spansAt s w .read 0x2000 64))) = true
    ∧ clearAt s w .atomic 0x2010 4 (spansAt s w .atomic 0x2010 4)
    ∧ (∀ n ∈ [0, 1, 2], leNat ((world w (recordMem ++ [(0x2010, 4, n)])).homeBytes (spansAt s w .atomic 0x2010 4)) = n)
    ∧ (∀ x ∈ spansAt s w .atomic 0x2010 4, x.ord ≠ 3) ∧ (spansAt s w .atomic 0x2010 4).length = 1 :=
  ⟨rfl, by decide +kernel, by decide +kernel, by decide +kernel, by decide +kernel, clearAt_of _ _ _ _ _ (by decide +kernel), by decide +kernel,
    clearAt_of _ _ _ _ _ (by decide +kernel), by decide +kernel, by decide +kernel, by decide +kernel⟩


theorem ok_any {ε α : Type} (x : Except ε α) (p : α → Bool)
    (h : (match x with | .ok a => p a | .error _ => false) = true) : ∃ a, x = .ok a ∧ p a = true := by
  cases x with
  | ok a => exact ⟨a, rfl, h⟩
  | error e => cases h

/-- A wave whose channel 0 copies 16 bytes from 0x2000 to its own scratchpad, and whose channel 3 copies nothing. -/
def waveC : Wave := { wave0 with
  shadow := ((wave0.shadow.setIfInBounds 0 0x2000).setIfInBounds 1 0x10000000000000).setIfInBounds 3 16 }

/-- A transfer of 16 bytes that holds a range and one of none, each with room; and, for `WAITID`, where DONE is 1, the last id
that has retired, the oldest that has not, and the first that was never given. -/
theorem witness_Copies : let w := waveC; let s := world w
    let h (n : Word) : Half := { core := 0, base := 0, blockSlot := 0, next := Vector.replicate 4 n }
    (s.runs w ∧ w.roomFor 2 ∧ w.exec ≠ 0 ∧ s.block w.block = some block0 ∧ block0.half (coreOf s.cur) = some (h 1))
    ∧ (∀ ch : BitVec 2, (s.withRecords (copyRecords ch)).wave s.cur = some w)
    ∧ (∃ x, (s.withRecords (copyRecords 0)).snapshot w (s.whoOf s.cur w) 0 = .ok x ∧ (decide (x.2.total = 16) && isOk (x.1.copyChecks (s.whoOf s.cur w) x.2)
        && (x.1.copyRange (s.whoOf s.cur w) x.2).isSome && decide ((x.1.core 0).rangesHeld < 16)
        && decide ((((x.1.core 0).chans[0]?).getD []).length < 16)) = true)
    ∧ (∃ x, (s.withRecords (copyRecords 3)).snapshot w (s.whoOf s.cur w) 3 = .ok x ∧ (decide (x.2.total = 0) && isOk (x.1.copyChecks (s.whoOf s.cur w) x.2)
        && decide ((((x.1.core 0).chans[3]?).getD []).length < 16)) = true)
    ∧ (0 < ((1 : Word) - 0).toNat ∧ ((1 : Word) - 0).toNat ≤ 2 ^ 31)
    ∧ (((1 : Word) - 1).toNat = 0 ∧ ((1 : Word) - 1).toNat < (copyNext (h 2) 0 - 1).toNat)
    ∧ (((1 : Word) - 1).toNat = 0 ∧ (copyNext (h 1) 0 - 1).toNat ≤ ((1 : Word) - 1).toNat) :=
  ⟨⟨runs_with _ _ [] rfl rfl, ⟨rfl, by decide +kernel⟩, by decide +kernel, rfl, rfl⟩, by decide +kernel, ok_any _ _ (by decide +kernel),
    ok_any _ _ (by decide +kernel), by decide +kernel, by decide +kernel, by decide +kernel⟩

/-- A spread table at 0x2000 of 8 rows on core 0. -/
def tableMem : List (Nat × Nat × Nat) := [(0x2002, 2, 1), (0x2008, 4, 8)]
def waveG (act : Word := 0xFFFFFFFF) : Wave := { wave0 with wm := 0x40, exec := act, regs := regsWith [(4, 0x2000), (9, 7), (10, 0x200000)] }

/-- The last row of the table, an index of the wave's own core, no lane, and a collective on a publish window. -/
theorem witness_Gathers : let w := waveG; let s := world w (windowMem ++ tableMem)
    s.runs w ∧ w.roomFor 2 ∧ setGather (wmET w.wm) = true ∧ setGatherAdd (wmET w.wm) = true ∧ widened (wmET w.wm) 3 = true
    ∧ (∃ keys, s.spreadLanes w 2 9 4 = .ok keys ∧ (decide (keys.length = 32) && keys.all (fun k => decide (k.2.1 = 7)
        && decide (k.2.2.1 = (s.whoOf s.cur w).core) && !(s.poisoned.contains (k.2.2.2 / 64)))) = true)
    ∧ (let t : State := { world w [(0x2000, 2, 1), (0x2002, 2, 1), (0x2008, 4, 8)] with
         cores := [(0, heapCore), (1, { gangHalt := true })],
         blocks := [(7, { block0 with paired := true, halves := [{ core := 0, base := 0, blockSlot := 0 }, { core := 1, base := 0, blockSlot := 0 }] })] }
       ∃ keys, t.spreadLanes w 2 9 4 = .ok keys
         ∧ ((elements keys).any fun k => decide (k.2.2.1 ≠ (t.whoOf t.cur w).core) && (t.core k.2.2.1).halted) = true)
    ∧ isOk ((world (waveG 0) (windowMem ++ tableMem)).spreadLanes (waveG 0) 2 9 4) = true ∧ activeMask (waveG 0) = 0
    ∧ activeMask w ≠ 0
    ∧ pairLane w.regs 5 (lowestLane (activeMask w)) = 0x200000 ∧ (lane w.regs 12 (lowestLane (activeMask w))).toNat < 3
    ∧ (0x200000#64).toNat % (32 * (wmET w.wm).bytes) = 0 ∧ (0x200000#64).toNat < globalEnd
    ∧ (∃ p, s.translate 0 0 1 0x200000 = .ok p ∧ (p.pub && p.w && s.paKind (p.pa 0x200000) != .nothing) = true) :=
  ⟨runs_with _ _ [(4, 0x2000), (9, 7), (10, 0x200000)] rfl rfl, ⟨rfl, by decide +kernel⟩, by decide +kernel, by decide +kernel, by decide +kernel,
    ok_any _ _ (by decide +kernel), ok_any _ _ (by decide +kernel), by decide +kernel, by decide +kernel, by decide +kernel, by decide +kernel, by decide +kernel, by decide +kernel, by decide +kernel,
    ⟨{ vbase := 0x200000, size := 0x200000, frame := 0x400000, r := true, w := true, x := false, ord := 1, cache := 0, pub := true,
       por := false }, by decide +kernel, by decide +kernel⟩⟩

/-- The follower of pair 0, the leader while block 9 owns the unit, and the leader of a free unit; an instruction with no lane. -/
theorem witness_Ownership : let s := world wave0; let f := { world wave0 with waves := [(32, wave0)], cur := 32 }
    (s.wave s.cur = some wave0 ∧ f.wave f.cur = some wave0) ∧ (coreOf f.cur % 2 = 1 ∧ coreOf s.cur % 2 = 0)
    ∧ (({ s with units := [(0, { owner := some 9 })] } : State).unit (pairHere s)).owner = some 9 ∧ (9 : Nat) ≠ wave0.block
    ∧ (s.unit (pairHere s)).owner = none
    ∧ (let w : Wave := { wave0 with exec := 0, wm := 0xAA0 };
       laneBound (.mma 0 0 2 3) = true ∧ activeMask w = 0 ∧ mmaTypes w = .ok ())
    ∧ (let w : Wave := { wave0 with exec := 0, wm := 0xAA0 }; wmET w.wm = .f32) ∧ (0x80#8) ≠ 0 :=
  ⟨⟨rfl, rfl⟩, ⟨rfl, rfl⟩, rfl, by decide +kernel, rfl, ⟨rfl, by decide +kernel, ok_is _ _ (by decide +kernel)⟩, by decide +kernel, by decide⟩

/-- Descriptors and registers for matrix operations, and the machine whose block owns the unit of pair 0. -/
def regsX : List (Nat × Word) :=
  [(4, 16), (5, 2 <<< 28), (6, 32), (7, 2 <<< 28), (8, 0xC1), (9, 3 <<< 28), (10, 0xC0), (12, 0x2000), (14, 2)]
def waveX (wm : Word) : Wave := { wave0 with wm := wm, regs := regsWith regsX }
def memX : List (Nat × Nat × Nat) :=
  [(0x2000, 1, 10), (0x3000, 8, 0x4000), (0x3008, 1, 10), (0x300A, 1, 2), (0x300C, 4, 1), (0x3010, 4, 1), (0x301C, 4, 16),
   (0x3040, 8, 0x10000000000000), (0x3048, 1, 12), (0x3049, 1, 2), (0x304A, 1, 2), (0x304C, 4, 16), (0x3050, 4, 128), (0x305C, 4, 128),
   (0x3078, 1, 2), (0x3079, 1, 4)]
def unitWorld (w : Wave) : State := { world w memX with units := [(0, { owner := some 7 })], pf := { drvfeat := 0x3F } }

theorem witness_MatrixIssue : let s := unitWorld (waveX 0xCC0)
    s.wave s.cur = some (waveX 0xCC0) ∧ coreOf s.cur % 2 = 0 ∧ (s.unit (pairHere s)).owner = some (waveX 0xCC0).block
    ∧ (∀ i ∈ [Instr.mma 0 0 2 3, .mmap 0 0 2 4, .acdrain 5 1, .taload 6 0, .taeval 2 0 0, .cbload 6 1, .mxredx 3 0, .aczero 3,
        .sacc 1 0 2], (matrixRow s (waveX 0xCC0) i).isSome = true)
    ∧ (matrixRow (unitWorld (waveX 0x40)) (waveX 0x40) (.acst 3 0 1)).isSome = true :=
  ⟨rfl, rfl, rfl, by decide +kernel, by decide +kernel⟩

/-- A unit whose one operation writes visible slot 3, with two batches closed, of which the first has retired. -/
def unitM : MatrixUnit :=
  { owner := some 7, batchNext := 3, batchDone := 1,
    ops := [{ id := 9, block := 7, uid := 1, core := 0, kind := .acst 3 1 [], joins := true, batch := some 2 }] }

theorem witness_MatrixMoves : let s : State := { world wave0 with units := [(0, unitM)] }
    s.runs wave0 ∧ wave0.roomFor 2 ∧ coreOf s.cur % 2 = 0 ∧ (s.unit (pairHere s)).owner = some wave0.block
    ∧ (unitM.closed 3 = false ∧ unitM.closed 1 = true ∧ unitM.retired 1 = true ∧ unitM.closed 2 = true ∧ unitM.retired 2 = false)
    ∧ (unitM.uses 0 0x80 = false ∧ unitM.mayRewrite 0x80 = false ∧ unitM.uses 0 0xFF = true)
    ∧ ({ sent := [{ id := 9, block := 7, uid := 1, core := 0, kind := .redx 0 0 3 0, joins := true }] } : MatrixUnit).uses 0 8 = true
    ∧ unitM.writesVisible (2#3).toNat = false
    ∧ (∀ n < 32, (activeMask wave0).getLsbD n = true → (lane wave0.regs 9 n).toNat < 2 ^ 13
        ∧ (lane wave0.regs 9 n).toNat ∉ (slotOf unitM.visible 2).poison)
    ∧ s.block wave0.block = some block0 :=
  ⟨runs_with _ _ [] rfl rfl, ⟨rfl, by decide +kernel⟩, rfl, rfl, by decide +kernel, by decide +kernel,
    by decide +kernel, by decide +kernel, by decide +kernel, rfl⟩

/-- One tree in row 63, the last row of a tile, for one lane; and a vector of one element on 32 planes. -/
def regsL : List (Nat × Word) := [(4, 0x2000), (6, 1 + 63 <<< 16), (8, 32 + 1 <<< 8)]
def waveL : Wave := { wave0 with wm := 0xA0, exec := 1, regs := regsWith regsL }

theorem witness_LeavesAndProjections : let w := waveL; let s := unitWorld w
    s.runs w ∧ w.roomFor 2 ∧ activeMask w ≠ 0 ∧ coreOf s.cur % 2 = 0 ∧ (s.unit (pairHere s)).owner = some w.block ∧ wmET w.wm = .f32
    ∧ (lane w.regs 6 0).toNat = 1 + 0 * 2 ^ 8 + 63 * 2 ^ 16 ∧ (slotOf (s.unit (pairHere s)).visible 0).kind = 0
    ∧ (s.unit (pairHere s)).writesVisible 0 = false ∧ (pairLane w.regs 2 0).toNat % 4 = 0
    ∧ (∀ n < 32, (activeMask w).getLsbD n = true → 63 + n ≤ 63 ∧ ∀ k < 1, (63 + n) * 128 + k ∉ (slotOf (s.unit (pairHere s)).visible 0).poison)
    ∧ clear s .read [{ lane := 0, va := 0x2000, spans := s.check (s.whoOf 0 w) .read false 0x2000 4 }]
    ∧ setTxt (wmET w.wm) = true ∧ (lane w.regs 8 0).toNat = 32 + 1 * 2 ^ 8 ∧ (1 ≤ 1 ∧ 32 ≤ 32 ∧ 1 < 4096) :=
  ⟨runs_with _ _ regsL rfl rfl, ⟨rfl, by decide +kernel⟩, by decide +kernel, rfl, rfl, by decide +kernel, by decide +kernel, by decide +kernel,
    by decide +kernel, by decide +kernel, by decide +kernel, clear_of _ _ _ (by decide +kernel), by decide +kernel, by decide +kernel, by decide +kernel⟩

/-- A launch header at 64 times 0x80, and a Sluice that holds one entry or none. -/
def headerMem : List (Nat × Nat × Nat) := [(0x2000, 8, 0x3000)]
def waveT (act : Word := 1) : Wave := { wave0 with exec := act, regs := regsWith [(4, 0x2040), (6, 0x80), (8, 1)] }

theorem witness_Launches : let w := waveT; let s := world w headerMem; let h : Half := { core := 0, base := 0, blockSlot := 0 }
    s.runs w ∧ w.roomFor 8 ∧ s.block w.block = some block0 ∧ block0.half (coreOf s.cur) = some h
    ∧ activeMask w ≠ 0 ∧ activeMask (waveT 0) = 0 ∧ 4096 ≤ block0.scratch ∧ (lane w.regs 6 (lowestLane (activeMask w))).toNat < 65536
    ∧ (∀ n ∈ lanesOf (activeMask w), (pairLane w.regs 2 n).toNat < globalEnd ∧ (pairLane w.regs 2 n).toNat % 64 = 0)
    ∧ clearAt s w .read (s.recordAddr (s.whoOf s.cur w) 0x80) 64 (spansAt s w .read (s.recordAddr (s.whoOf s.cur w) 0x80) 64)
    ∧ headerOk (lineOf (s.loadSpans w.uid (spansAt s w .read (s.recordAddr (s.whoOf s.cur w) 0x80) 64))) = true
    ∧ (255 + (lanesOf (activeMask w)).length ≤ 256 ∧ 256 < 256 + (lanesOf (activeMask w)).length)
    ∧ (Nat.min 32 (0 - 0) = 0 ∧ Nat.min 32 (40 - 0) = 32)
    ∧ (∀ i < 32, scratchKey h.core (h.base + block0.scratch - 4096 + 16 * ((h.sluiceHead + i) % 256)) / 64 ∉ s.poisoned)
    ∧ ((h.completed - lane w.regs 7 w.leadLane).toNat < 2 ^ 31 ∧ ¬ (h.completed - lane w.regs 8 w.leadLane).toNat < 2 ^ 31) :=
  ⟨runs_with _ _ [(4, 0x2040), (6, 0x80), (8, 1)] rfl rfl, ⟨rfl, by decide +kernel⟩, rfl, rfl, by decide +kernel, by decide +kernel, by decide +kernel,
    by decide +kernel, by decide +kernel, clearAt_of _ _ _ _ _ (by decide +kernel), by decide +kernel, by decide +kernel, by decide +kernel, by decide +kernel, by decide +kernel⟩

/-- A resource of one level of one resident texel at 0x2000, and a sampler of it at 0x2040 whose program ends at once. -/
def lodMem : List (Nat × Nat × Nat) :=
  [(0x2000, 8, 0x2100), (0x2008, 8, 0x2200), (0x2010, 4, 5), (0x2015, 1, 1), (0x2018, 2, 1), (0x201A, 2, 1), (0x2040, 8, 0x2000),
   (0x2048, 8, 0x2300), (0x2200, 1, 1), (0x2303, 1, 0x90)]
def regsS : List (Nat × Word) := [(4, 0x2000), (6, 0x2040)]
def waveS (act : Word := 1) : Wave := { wave0 with wm := 0xA0, exec := act, regs := regsWith regsS }

theorem witness_SamplerReads : let w := waveS; let s := world w lodMem; let who := s.whoOf s.cur w
    s.runs w ∧ w.roomFor 8 ∧ activeMask w ≠ 0 ∧ activeMask (waveS 0) = 0 ∧ setTxt (wmET w.wm) = true ∧ setTxt (wmET 0) = false
    ∧ (252#8).toNat ≤ 252 ∧ 252 < (253#8).toNat
    ∧ (∃ r, s.readLod w (pairLane w.regs 2 (lowestLane (activeMask w))) = .ok r
      ∧ (passes s .read ((lanesOf (activeMask w)).flatMap fun n =>
          (ldlodLane r (lane w.regs 10 n) { s := s, w := w, who := who, lane := n }).accesses)
        && decide ((lookup s w r 0 0 0, lookup s w r 0 0 1) = ((0, 0), (3, 0)))) = true)
    ∧ ∃ x, s.readSampler w (pairLane w.regs 3 (lowestLane (activeMask w))) = .ok x
      ∧ (passes s .read ((lanesOf (activeMask w)).flatMap fun n => (sampleLane x.2.1 x.2.2.1 x.2.2.2 (lineField x.1 16 1) 0 0 0 0
          { s := s, w := w, who := who, lane := n }).accesses)) = true :=
  ⟨runs_with _ _ regsS rfl rfl, ⟨rfl, by decide +kernel⟩, by decide +kernel, by decide +kernel, by decide +kernel, by decide +kernel, by decide +kernel, by decide +kernel,
    ok_any _ _ (by decide +kernel), ok_any _ _ (by decide +kernel)⟩

/-- A primitive at 0x2000 whose view of one pixel is at 0x2040, which is context 1's view too. -/
def viewMem : List (Nat × Nat × Nat) :=
  [(0x2028, 8, 0x2040), (0x2048, 2, 1), (0x204A, 2, 1), (0x204C, 1, 1), (0x8188, 8, 0x2040)]
def regsV : List (Nat × Word) := [(4, 0x2000)]
def waveV (act : Word := 1) : Wave := { wave0 with exec := act, regs := regsWith regsV }

theorem witness_Coverage : let w := waveV; let s := world w viewMem; let who := s.whoOf s.cur w
    let l := s.laneAccesses who .read true (activeMask w) (pairLane w.regs 2) 64
    let vl := s.laneAccesses who .read true (activeMask w) (fun _ => 0x2040) 64
    let v := lineOf (s.loadSpans w.uid (spansAt s w .read 0x2040 64))
    s.runs w ∧ w.roomFor 2 ∧ activeMask w ≠ 0 ∧ activeMask (waveV 0) = 0 ∧ clear s .read l ∧ clear s .read vl
    ∧ (∀ n ∈ lanesOf (activeMask w), lineField (lineOf (s.loadSpans w.uid (spansOf l n))) 48 16 = 0
      ∧ lineField (lineOf (s.loadSpans w.uid (spansOf l n))) 40 8 = 0x2040)
    ∧ viewOk v = true ∧ s.ctxField who.pav who.ctx 136 8 = 0x2040 ∧ clearAt s w .read 0x2040 64 (spansAt s w .read 0x2040 64)
    ∧ (0 < viewWidth v ∧ 0 < viewHeight v ∧ 0 < viewSamples v) ∧ s.tileOwed w.uid 0 0 = false
    ∧ clear s .read [{ lane := 0, va := 4, spans := s.check who .read false 4 4 }] :=
  ⟨runs_with _ _ regsV rfl rfl, ⟨rfl, by decide +kernel⟩, by decide +kernel, by decide +kernel, clear_of _ _ _ (by decide +kernel), clear_of _ _ _ (by decide +kernel),
    by decide +kernel, by decide +kernel, by decide +kernel, clearAt_of _ _ _ _ _ (by decide +kernel), by decide +kernel, by decide +kernel,
    clear_of _ _ _ (by decide +kernel)⟩

/-- A field word of a decoder (R239). -/
def fieldWord (kind width off : Nat) : Nat := off + 2048 * width + 2 ^ 19 * kind
/-- A decoder of uncompressed 64-byte nodes with these fields. -/
def decoderBytes (l : List Nat) : List Byte := leBytes (l.length * 65536) 16 ++ l.flatMap fun x => leBytes x 4
/-- COUNT, a reference, six planes, two keys and three more coordinates. -/
def fields0 : List Nat :=
  [fieldWord 8 8 0, fieldWord 2 64 64] ++ (List.range 6).map (fun k => fieldWord 1 32 (128 + 32 * k))
    ++ [fieldWord 6 32 320, fieldWord 6 32 352] ++ (List.range 3).map (fun k => fieldWord 1 32 (384 + 32 * k))

/-- The bytes of a node: one entry, whose reference is 0x3000; corners (0, 0, 0) and (1, 1, 1); keys 5 and 9. -/
def node0 : List Byte :=
  leBytes 1 8 ++ leBytes 0x3000 8 ++ leBytes 0 12 ++ leBytes 0x3F800000 4 ++ leBytes 0x3F800000 4 ++ leBytes 0x3F800000 4
    ++ leBytes 5 4 ++ leBytes 9 4 ++ leBytes 0 16

def prog0 : WalkerProgram :=
  { index := 0, code := 0, ndec := 1, hookCount := 1, hookBase := 0x6000, decoders := [decoderBytes (fields0 ++ [])] }

/-- A walker that holds that node, with its query at 0x7000. Its registers w1, w2 and w3 are 0x2000, 1 and a far reference. -/
def walker0 : Walker :=
  { uid := 5, block := 7, launch := 4, pc := 0x3000, query := 0x7000, tag := 9, spill := 0x9000, prog := prog0, nodebuf := node0,
    noderef := 0x2000,
    w := (((Vector.replicate 16 0).setIfInBounds 1 0x2000).setIfInBounds 2 1).setIfInBounds 3 (2 ^ 56 + 0x2000) }

/-- The machine in which it is walker 0 of core 0. -/
def walkWorld (w : Walker) (l : List (Nat × Nat × Nat) := []) : State :=
  { world wave0 l with cores := [(0, { heapCore with walkers := [(0, w)] })] }

theorem walks_of (w : Walker) (l : List (Nat × Nat × Nat)) : walks (walkWorld w l) w := by
  simp [walks, walkWorld, world, State.walker, State.core, Assoc.find]

theorem witness_WalkerArithmetic : walks (walkWorld walker0) walker0
    ∧ (∀ i ∈ [Instr.gtsAdd 0 1 2, .gtsAddImm 0 1 (-8192), .gtsSub 0 1 2, .gtsSubImm 0 1 8191, .gtsMul 0 1 2, .gtsMulImm 0 1 3,
        .gtsAnd 0 1 2, .gtsAndImm 0 1 3, .gtsOr 0 1 2, .gtsOrImm 0 1 3, .gtsXor 0 1 2, .gtsXorImm 0 1 3, .gtsShl 0 1 2,
        .gtsShlImm 0 1 63, .gtsShr 0 1 2, .gtsShrImm 0 1 63, .gtsMov 0 1, .gtsLdi 0 5, .stkd 15], (aluRow walker0 i).isSome = true) :=
  ⟨walks_of _ _, by decide +kernel⟩

/-- The same under a decoder of a reserved node size, and under one without fields. -/
def walkerBad : Walker := { walker0 with prog := { prog0 with decoders := [leBytes 3 16] } }
def walkerBare : Walker := { walker0 with prog := { prog0 with decoders := [] } }

theorem witness_WalkerNodes : let w := walker0; let s := walkWorld w
    walks s w ∧ (∃ n, w.node = .ok n ∧ ((n.boxes.isSome && n.triangle.isSome && n.keys.isSome)
      && [Instr.ndec 0, .nfield 0 0 12, .nchild 0 0, .boxt 0 12, .trit 14 12, .kcmp 0 2 0, .krange 0 2 1].all
          fun i => (nodeRow w n i).isSome) = true)
    ∧ (refOk w.prog.ndec (w.reg 1) = true ∧ refCard (w.reg 1) = 0 ∧ (w.decoder (refDec (w.reg 1))).size ≤ 2)
    ∧ (∃ bs, walkerReads s w (BitVec.ofNat 64 (refAddr (w.reg 1))) 64 bs)
    ∧ (w.reg 0 = 0 ∧ refOk w.prog.ndec (w.reg 2) = false)
    ∧ (w.reg 3 ≠ 0 ∧ refOk w.prog.ndec (w.reg 3) = true ∧ refCard (w.reg 3) = 1)
    ∧ (walkerBad.noderef ≠ 0 ∧ (nodeHeld walkerBad).ok = false)
    ∧ (∃ n, walkerBare.node = .ok n ∧ (lacks n (.boxt 0 12) && lacks n (.trit 14 12)
        && lacks n (.frust 0 1) && lacks n (.cover 0 1)) = true)
    ∧ ((w.reg 1).toNat % 64 = 0 ∧ ∃ bs, walkerReads s w (w.reg 1) 96 bs) :=
  ⟨walks_of _ _, ok_any _ _ (by decide +kernel), by decide +kernel, ok_of _ (by decide +kernel), by decide +kernel, by decide +kernel,
    by decide +kernel, ok_any _ _ (by decide +kernel), by decide +kernel, ok_of _ (by decide +kernel)⟩

/-- A list of `TOPK` at 0x2000 with one of two places taken, and a full one at 0x2040. -/
def nearMem : List (Nat × Nat × Nat) :=
  [(0x2000, 2, 1), (0x2002, 2, 2), (0x2008, 4, 7), (0x200C, 4, 0x3F800000), (0x2040, 2, 1), (0x2042, 2, 1), (0x2048, 4, 7),
   (0x204C, 4, 0x3F800000)]

/-- A walker whose w4 holds the second list's address and w5 a farther distance. -/
def walkerN : Walker := { walker0 with w := (walker0.w.setIfInBounds 4 0x2040).setIfInBounds 5 0x40000000 }

theorem witness_WalkerMemory : let w := walkerN; let s := walkWorld w nearMem
    walks s w ∧ ((w.reg 1).toNat < 2 ^ 48 ∧ (w.reg 1).toNat % 8 = 0 ∧ ∃ bs, walkerReads s w (w.reg 1 + BitVec.ofNat 64 (8 * 16383)) 8 bs)
    ∧ ((1#2).toNat < 2 ∧ (4095#12) ≠ 0 ∧ ∃ q, walkerReads s w (w.reg 1) (2 * (4095#12).toNat) q)
    ∧ ((9 < (10#4).toNat) ∧ ((9#4).toNat % 2 = 1 ∨ 8 < (9#4).toNat) ∧ (9#4).toNat ≤ 9 ∧ ((8#4).toNat % 2 = 0 ∧ (8#4).toNat ≤ 8))
    ∧ (w.shipped = none ∧ (∃ bs, walkerReads s w (w.query + BitVec.ofNat 64 (16 + 4 * 8)) 8 bs)
      ∧ ∃ t, s.walkerStores s.curWalker w [(w.query + BitVec.ofNat 64 (16 + 4 * 9), leBytes (w.reg 1).toNat 4)] = .ok t)
    ∧ ({ walker0 with shipped := some { query := 0, origin := 3, pav := 0, ctx := 1 } } : Walker).shipped.isSome = true
    ∧ (nearList s w (w.reg 1) 2 [(7, 0x3F800000)] ∧ topkInsert 2 [(7, 0x3F800000)] (0, 0x40000000) = some (1, [(7, 0x3F800000), (0, 0x40000000)])
      ∧ ∃ t, s.walkerStores s.curWalker w [(w.reg 1 + 16, leBytes 0 4 ++ leBytes 0x40000000 4), (w.reg 1, leBytes 2 2)] = .ok t)
    ∧ (nearList s w (w.reg 4) 1 [(7, 0x3F800000)] ∧ topkInsert 1 [(7, 0x3F800000)] (0, 0x40000000) = none) := by
  refine ⟨walks_of _ _, ⟨by decide +kernel, by decide +kernel, ok_of _ (by decide +kernel)⟩, ⟨by decide +kernel, by decide +kernel, ok_of _ (by decide +kernel)⟩,
    by decide +kernel, ⟨rfl, ok_of _ (by decide +kernel), ok_of _ (by decide +kernel)⟩, rfl,
    ⟨⟨leBytes (1 + 2 * 65536) 8, leBytes (7 + 0x3F800000 * 2 ^ 32) 8, ok_is _ _ (by decide +kernel), by decide +kernel, by decide +kernel,
      fun _ => ok_is _ _ (by decide +kernel), by decide +kernel⟩, by decide +kernel, ok_of _ (by decide +kernel)⟩,
    ⟨leBytes (1 + 1 * 65536) 8, leBytes (7 + 0x3F800000 * 2 ^ 32) 8, ok_is _ _ (by decide +kernel), by decide +kernel, by decide +kernel,
      fun _ => ok_is _ _ (by decide +kernel), by decide +kernel⟩, by decide +kernel⟩

/-- A walker whose stack holds `n` resident entries of `depth`. -/
def stacked (n depth : Nat) : Walker := { walker0 with stack := List.replicate n { ref := 0, key := 0, aux := 0 }, depth := depth }

/-- An entry that a push takes without and with a spill; one that would pass depth 128, or must spill with no area; what the mask 1
of `PUSHM` names; and pops of a resident entry, of the last one, and of one below which entries are spilled. -/
theorem witness_WalkerStack :
    let e (w : Walker) : StackEntry := { ref := w.reg 0, key := loWord (w.reg 1), aux := hiWord (w.reg 1) }
    let some_ : StackEntry := { ref := 0, key := 0, aux := 0 }
    (∀ w ∈ [stacked 15 127, stacked 16 16], walks (walkWorld w) w ∧ w.stack.length ≤ 16 ∧ w.stack.length ≤ w.depth ∧ w.depth ≤ 128
      ∧ [e w].length ≤ pushRoom w ∧ ∃ t, (walkWorld w).walkerStores 0 w (spillsOf w [e w]) = .ok t)
    ∧ (spillsOf (stacked 15 127) [e (stacked 15 127)] = [] ∧ (spillsOf (stacked 16 16) [e (stacked 16 16)]).length = 1)
    ∧ (∀ w ∈ [stacked 16 128, { stacked 16 16 with spill := 0 }], w.stack.length ≤ 16 ∧ w.stack.length ≤ w.depth ∧ w.depth ≤ 128
      ∧ [e w][pushRoom w]? = some (e w))
    ∧ (∃ n, (stacked 15 127).node = .ok n
      ∧ decide (((List.range 16).filter fun m => ((stacked 15 127).reg 2).getLsbD m && n.child m != 0).length = 1) = true)
    ∧ ((14#4).toNat ≤ 14 ∧ 14 < (15#4).toNat ∧ (stacked 0 0).stack = [] ∧ (stacked 2 2).stack = [some_] ++ [some_]
      ∧ (stacked 1 1).depth ≤ 1)
    ∧ (let w := stacked 1 9; 1 < w.depth ∧ ∃ bs, walkerReads (walkWorld w) w (w.spill + BitVec.ofNat 64 (16 * (w.depth - 1 - 8))) (16 * 8) bs) := by
  refine ⟨?_, by decide +kernel, by decide +kernel, ok_any _ _ (by decide +kernel), by decide +kernel, by decide +kernel, ok_of _ (by decide +kernel)⟩
  simp only [List.mem_cons, List.not_mem_nil, or_false]
  rintro w (rfl | rfl) <;>
    exact ⟨walks_of _ _, by decide +kernel, by decide +kernel, by decide +kernel, by decide +kernel, ok_of _ (by decide +kernel)⟩

/-- A hook table at 0x6000 with one target, and a view of one pixel at 0x2040. -/
theorem witness_WalkerPosts : let w := { walker0 with w := walker0.w.setIfInBounds 4 0x2040 }; let s := walkWorld w ((0x6000, 8, 1) :: viewMem)
    walks s w ∧ (w.prog.hookCount.toNat ≤ 1 ∧ 0 < w.prog.hookCount.toNat ∧ ∃ bs, walkerReads s w w.prog.hookBase 8 bs)
    ∧ (w.shipped = none ∧ s.canPost s.curWalker w true = true ∧ s.canPost s.curWalker w false = true ∧ s.block w.block = some block0
      ∧ block0.half (s.curWalker / 64) = some { core := 0, base := 0, blockSlot := 0 })
    ∧ (∃ n, w.node = .ok n ∧ n.triangle.isSome = true)
    ∧ ((w.reg 4).toNat % 64 = 0 ∧ ∃ bs, walkerReads s w (w.reg 4) 64 bs ∧ viewOk (lineOf bs) = true)
    ∧ (refOk w.prog.ndec (w.reg 2) = false ∧ refCard (w.reg 1) ≠ 1 ∧ refOk w.prog.ndec (w.reg 3) = true ∧ refCard (w.reg 3) = 1
      ∧ (∃ l, s.wholeStack s.curWalker w = .ok l) ∧ ∃ q, s.queryCopy s.curWalker w = .ok q)
    ∧ (s.pf.ualup = false ∧ isOk (({ s with pf := { ualup := true } } : State).queryCopy s.curWalker w) = true
      ∧ isOk (({ s with pf := { ualup := true } } : State).wholeStack s.curWalker w) = true) :=
  ⟨walks_of _ _, ⟨by decide +kernel, by decide +kernel, ok_of _ (by decide +kernel)⟩, ⟨rfl, by decide +kernel, by decide +kernel, rfl, rfl⟩,
    ok_any _ (fun n : Node => n.triangle.isSome) (by decide +kernel), ⟨by decide +kernel, ok_any _ (fun bs : List Byte => viewOk (lineOf bs)) (by decide +kernel)⟩,
    ⟨by decide +kernel, by decide +kernel, by decide +kernel, by decide +kernel, ok_of _ (by decide +kernel), ok_of _ (by decide +kernel)⟩,
    by decide +kernel⟩

/-- The device once every function is ready, with the driver's features locked. -/
def upPf : PhysFn := { ready := 0x1FFFF, drvfeat := 0x3F, locked := true, ualen := true, ualup := true, vfmap := [(0, 0x83)] }
def up : State := { State.reset with pf := upPf }
/-- The same before `n` is ready. -/
def before (n : Nat) : State := { up with pf := { upPf with ready := upPf.ready &&& ~~~(1#64 <<< n) } }

theorem witness_BringUp :
    (∀ n ≤ 16, (before n).pf.ready.getLsbD n = false ∧ (before n).pf.readyErr.getLsbD n = false
      ∧ (∀ m ∈ needs n, (before n).pf.ready.getLsbD m = true) ∧ (n = 15 → (before n).pf.ualen = true ∧ (before n).pf.ualup = true)
      ∧ (before n).pf.mapoutBusy = false ∧ (before n).pf.marked = [])
    ∧ (up.pf.readyErr.getLsbD 15 = false ∧ (before 15).pf.ualen = true)
    ∧ (up.regsUp = true ∧ up.pf.locked = true ∧ ({ upPf with locked := false } : PhysFn).locked = false
      ∧ (0x40 : BitVec 256) &&& ~~~upPf.devfeat ≠ 0 ∧ (0x3F : BitVec 256) &&& ~~~upPf.devfeat = 0)
    ∧ (up.pf.ualen = true ∧ up.pf.ualup = true ∧ up.pf.ready.getLsbD 1 = true ∧ up.pf.ready.getLsbD 16 = true)
    ∧ (6900 < (6901#16).toNat ∧ (6900#16).toNat = 6900 ∧ (6899#16).toNat < 6900 ∧ 1000 ≤ up.mhz ∧ up.mhz ≤ 1500)
    ∧ (223 < 224 ∧ up.coreIdle 223 = true) := by decide +kernel

theorem witness_RegisterWrites : State.reset.regReady 0x10 = false ∧ State.reset.regsUp = false
    ∧ (up.regsUp = true ∧ up.vfPav 0 = some 3 ∧ up.vfPav 127 = none ∧ 0xFFF8 % 8 = 0)
    ∧ (∀ core ∈ [0, 111, 112, 223], core < 224 ∧ up.pf.ready.getLsbD (9 + core / 112) = true)
    ∧ ({ up with pf := { upPf with locked := false } } : State).pf.locked = false ∧ up.pf.locked = true
    ∧ (0xFFFFFFFF#64).toNat < 2 ^ 32 ∧ (0x1FFFF#64).getLsbD 16 = true := by decide +kernel

/-- The device with its last queue, number 255 of pavilion 15, created for records on die `home`, and full or empty. -/
def descAt (home size : Nat) : Line := BitVec.ofNat 512 (0x3000 + size * 2 ^ 64 + 2 ^ 97 + home * 2 ^ 120 + 2 ^ 112)
def queueUp (home tail : Nat) : State :=
  { up with pavs := [(15, { desc := [(255, descAt home 16)], queues := [(255, { tail := BitVec.ofNat 32 tail })] })] }

theorem witness_HostAccess :
    (∀ home < 2, (queueUp home 0).queueHome 15 255 < 2 ∧ (queueUp home 0).pf.ready.getLsbD (11 + (queueUp home 0).queueHome 15 255) = true
      ∧ windowError (queueUp home 0) 15 255 true (BitVec.ofNat 512 (0x4000 + 2 ^ 184)) = none
      ∧ windowError (queueUp home 0) 15 255 false 0 = some 1 ∧ windowError (queueUp home 16) 15 255 true 0 = some 2
      ∧ windowError (queueUp home 0) 15 255 true 1 = some 3 ∧ windowError (queueUp home 0) 15 254 true 0 = some 8)
    ∧ ({ queueUp 0 0 with pf := { upPf with ready := 0x3 } } : State).pf.ready.getLsbD (11 + (queueUp 0 0).queueHome 15 255) = false
    ∧ (up.pf.ready.getLsbD 5 = true ∧ 0x2000000000 - 1 + [(1 : Byte)].length ≤ 0x2000000000 ∧ State.reset.pf.ready.getLsbD 5 = false)
    ∧ (up.paKind (0x4000000000000 / 64 * 64) = .host ∧ up.pf.ready.getLsbD 6 = true)
    ∧ (up.queueEnabled 15 255 = false ∧ (descAt 0 16).getLsbD 97 = true ∧ descOk (descAt 0 16) = true ∧ descOk (descAt 0 8) = false
      ∧ (rtReserved up).length < 64 ∧ (rtReserved up).sum + lineField (descAt 0 16) 16 2 ≤ 7168)
    ∧ (queueUp 0 0).queueEnabled 15 255 = true
    ∧ (up.pf.scrubPeriod ≠ 0 ∧ (0x80000000 - 1) * 64 < 0x2000000000 ∧ ({ up with pf := { upPf with scrubPeriod := 0 } } : State).pf.scrubPeriod = 0
      ∧ (world wave0).wave 0 = some wave0)
    ∧ (up.paKind (0x7FFFFFFF * 64) ≠ .partner ∧ 4 ≤ hopMismatches (up.lineCheck 5) (List.replicate 4 (up.lineCheck 5 + 1))
      ∧ ¬ 4 ≤ hopMismatches (up.lineCheck 5) (List.replicate 3 (up.lineCheck 5 + 1))
      ∧ (rd manyRows 255).isRow = true ∧ (world { wave0 with regs := manyRows }).wave 0 = some { wave0 with regs := manyRows })
    ∧ (∀ die < 2, up.pf.ready.getLsbD (7 + die) = true) := by decide +kernel

/-- A pending fault of unit `u` in pavilion 0, whose fault ring of 16 entries is at 0xA000. -/
def faultOf (u : FaultUnit) : PendingFault := { id := 6, va := 0x2000, kind := .read, unit := u, core := 0, ctx := 1, lanes := 1 }
def faulted (s : State) (u : FaultUnit) (l : List (Nat × Nat × Nat) := []) : State :=
  { s with pavs := [(0, { ctxtab := 0x8000, ctxcount := 2, faults := [faultOf u], fltring := 0xA000 })], mem := memOf ((0xA010, 4, 16) :: l) }

/-- A log entry of a load that waits for that fault. -/
def openLog : LogEntry :=
  { pc := 0x1000, instr := .ld 3 2 1, word := 0xA0030201, wm := 0x40, lanes := 1, exec := 1, failLanes := 1, sources := [], faddr := 0x2000,
    fltid := some 6, state := .pending, past := 0, holds := false }

/-- Request 6 of group 5 of a unit, alone or with another of the group. -/
def reqOf (u : FaultUnit) (id : Nat := 6) : FabricReq :=
  { id := id, group := 5, unit := u, core := 0, ctx := 1, key := 0, ask := { kind := .read, tag := 0, pa := 0x8000000000000, len := 4, va := 0x2000, page := 4096 } }

/-- An import of one page for context 1, readable and writable. -/
def importPf : PhysFn :=
  { upPf with impcount := 1, imports := [(4, 0xF), (6, 1), (9, 0x20), (17, 0x10)] }
def request (kind : AccessKind) (size : Nat) : IngressReq := { index := 0, offset := 0x1000 - size, size := size, kind := kind, key := 0, data := leBytes 0 size }
def importing : State := { world wave0 [(0x8118, 8, 0x100000), (0x817C, 1, 1)] with pf := importPf }
def importing1 : State := { importing with fresh := importing.fresh + 1 }
def importer : Who := { core := 0, pav := importing.importPav 1, ctx := 1, block := importing.fresh + 1, uid := importing.fresh + 1 }

def handoff0 : HandoffMsg :=
  { core := 0, pav := 0, ctx := 1, prog := 0, regs := [], named := 0, f := false, pc := 0, stack := [], nodebuf := [], noderef := 0, query := 0,
    tag := 0, origin := 0 }

/-- Context 1 of pavilion 0 under a shoot-down of everything, with a request to the partner card from core 0. -/
def shooting : State :=
  { world wave0 with pavs := [(0, { ctxtab := 0x8000, ctxcount := 2, sdCtx := 1, sdBusy := true, sdOwed := [.core 0, .core 223, .die 1] })],
                     fabric := [reqOf (.wave 0)], pf := upPf }

theorem witness_OutsideAnswers :
    (∀ u ∈ [FaultUnit.wave 0, .sampler 0, .gather 0, .walker 0, .copy 0 3, .matrix 0, .coverage 1, .coll 2],
      ∀ s ∈ [world wave0, walkWorld walker0], ((faulted s u).pendingFault 0 6).map (fun f => (f.unit, f.id)) = some (u, 6))
    ∧ (∀ x ∈ [Wait.fault 6, .logRoom 6], let w : Wave := { wave0 with wait := x }; (world w).wave 0 = some w ∧ w.log = [])
    ∧ (let w : Wave := { wave0 with log := [openLog] }; w.wait ≠ .fault 6 ∧ w.wait ≠ .logRoom 6 ∧ w.log = [openLog] ∧ openLog.fltid = some 6)
    ∧ (let w : Walker := { walker0 with wait := .fault 6 }; (walkWorld w).walker 0 = some w)
    ∧ (∃ f, ((faulted (world wave0) (.wave 0)).pav 0).faults.find? (fun f => !f.posted) = some f)
    ∧ (faulted (world wave0) (.wave 0)).ringCount ((faulted (world wave0) (.wave 0)).pav 0).fltring.toNat 32 = some 16
    ∧ ((faulted (world wave0) (.wave 0) [(0xA000, 4, 15)]).mem.readLE 0xA000 4 + 2 ^ 32
        - (faulted (world wave0) (.wave 0) [(0xA000, 4, 15)]).mem.readLE 0xA004 4) % 2 ^ 32 < 16
    ∧ ((shooting.pav 0).sdBusy = true ∧ (up.pav 15).sdBusy = false ∧ up.pf.locked = true)
    ∧ ((shooting.performShot 0 (.core 0)).shotAccess 0 (.core 0) = true
      ∧ (shooting.performShot 0 (.core 223)).shotAccess 0 (.core 223) = false ∧ (shooting.performShot 0 (.die 1)).shotAccess 0 (.die 1) = false
      ∧ ∀ u ∈ [ShootUnit.core 0, .core 223, .die 1], u ∈ (shooting.pav 0).sdOwed)
    ∧ (∀ u ∈ [FaultUnit.wave 0, .sampler 0, .gather 0, .walker 0], [reqOf u, reqOf u 7].find? (fun x => x.id == 6) = some (reqOf u)
      ∧ (replied { up with fabric := [reqOf u] } (reqOf u)).fabric.any (fun x => x.group == 5) = false
      ∧ (replied { up with fabric := [reqOf u, reqOf u 7] } (reqOf u)).fabric.any (fun x => x.group == 5) = true)
    ∧ (let w : Wave := { wave0 with wait := .fabric 5 }; (world w).wave 0 = some w ∧ up.pf.ualup = true)
    ∧ (let w : Walker := { walker0 with wait := .fabric 5 }; (walkWorld w).walker 0 = some w)
    ∧ (importing.pf.ualup = true ∧ importing.importCheck (request .read 0x1001) = some 3
      ∧ importing.importCheck (request .fetch 4) = some 4 ∧ importing.importCheck { request .read 4 with key := 1 } = some 2
      ∧ importing.importCheck { request .read 4 with index := 1 } = some 1)
    ∧ (∀ kind ∈ [AccessKind.read, .write], importing.importCheck (request kind 4) = none
      ∧ (match (importing1.setCore 0 (importing1.loadCtx {} (importing.importPav 1) 1)).resolve importer kind false
          (importing.importField 0 8 8 + 0xFFC) 4 with
        | .ok l => l.all fun x => !x.partner
        | .error _ => false) = true)
    ∧ (let p : IngressPending := { id := 9, req := request .read 4, pav := 0, ctx := 1, va := 0, fault := some 6 }
       [p].find? (fun x => x.id == p.id) = some p)
    ∧ ((importing.core handoff0.core).fifo.length < 256 ∧ importing.ctxValid handoff0.pav handoff0.ctx = true
      ∧ importing.ctxValid 15 1 = false ∧ (importing.hostOf (handoff0.core / 2)).isSome = true ∧ importing.paused handoff0.pav handoff0.ctx = false
      ∧ ({ importing with hosts := [(111, none)] } : State).hostOf (223 / 2) = none)
    ∧ ({ upPf with ualup := false } : PhysFn).ualup = false
    ∧ (let w : Walker := { walker0 with wait := .remote 0x2000 }; (walkWorld w).walkerOf 5 = some (0, w) ∧ w.isRemote = true ∧ w.faulted = none
      ∧ (∀ r ∈ (walkWorld w).fabric, r.unit ≠ .walker 0) ∧ (walkWorld w).walker 0 = some w
      ∧ (1 ≤ 1 ∧ 4 ≤ 4 ∧ 5 ≤ 5) ∧ (walkWorld w).canPost 0 w true = true ∧ (walkWorld w).canPost 0 w false = true ∧ w.shipped = none
      ∧ isOk ((walkWorld w).walkerStores 0 w [(w.query, lineBytes 0)]) = true)
    ∧ ((walkWorld walker0).walkerOf 5 = some (0, walker0) ∧ walker0.isRemote = false)
    ∧ ((walkWorld walker0).walkerOf 6 = none ∧ (walkWorld walker0).walkerSaved 6 = false) := by
  refine ⟨by decide +kernel, by decide +kernel, by decide +kernel, by decide +kernel, ⟨_, rfl⟩, ?_⟩
  decide +kernel

def store0 (agent : Nat) : PendingStore := { agent := agent, core := 0, ctx := 1, cells := [(0x2000, 5)], unordered := false, replicated := some 0, va := 0x2000 }
/-- A resolved log entry, which holds the issue point or not. -/
def due (holds : Bool) : LogEntry := { openLog with fltid := none, state := .resolved, holds := holds }
/-- A walker that waits for what may come. -/
def walkerWaits (x : WalkerWait) : Walker := { walker0 with wait := x }
def queryMem : List (Nat × Nat × Nat) := [(0, 8, 0x3000), (0x7038, 8, 0x9000)]
def queryWorld : State :=
  { world wave0 queryMem with cores := [(0, { heapCore with fifo := [{ query := 0x7000, prog := 0, block := 7 }] })] }
def queryWalker : Walker :=
  { uid := queryWorld.fresh, block := 7, launch := queryWorld.fresh, w := Vector.replicate 16 0, pc := 0, query := 0x7000, tag := 0, spill := 0,
    prog := emptyProgram 0, start := .query }
def queryTaken : State :=
  { (queryWorld.setCore 0 { queryWorld.core 0 with fifo := [] }).setWalker 0 queryWalker with fresh := queryWorld.fresh + 1 }
/-- The walker once its record is read, with header `n`. -/
def queryRead (n : Nat) : Walker :=
  { queryWalker with w := queryWalker.w.setIfInBounds 0 0x7000, spill := 0x9000, prog := emptyProgram n, start := .header }
def log0 : LookupLog := { core := 0, pav := 0, ctx := 1, resid := 5, wanted := 0, tx := 0, ty := 0, level := 1, bitKey := 0 }

/-- Four receptions of a line over a hop whose check value mismatches. -/
def mismatches (s : State) (line : Nat) : List Word := List.replicate 4 (s.lineCheck line + 1)

theorem witness_PendingWork :
    (∀ r ∈ [(Wait.spawnRoom 2 6, Instr.spawn 2 6, Instr.spawnAppend 0), (.copyRoom 3 0, .cpygo 3 0, .cpygoStart 0),
        (.launchRoom 3 2 6, .tlaunch 3 2 6, .tlaunchEnqueue 0), (.writers 1, .acswap 1, .acswapExchange 0),
        (.primRoom 2, .primemit 2, .primemitSend 0)],
      (world { wave0 with wait := r.1 }).wave 0 = some { wave0 with wait := r.1 } ∧ retries 0 r.2.1 r.2.2 r.1)
    ∧ (let s : State := { world wave0 with cores := [(0, { heapCore with gangHalt := true })] }
       (s.core 0).halted = true ∧ ((world wave0).core 0).halted = false)
    ∧ (∀ (s : State) line, 4 ≤ (mismatches s line).length ∧ ∀ x ∈ (mismatches s line).take 4, x ≠ s.lineCheck line)
    ∧ (let w : Wave := { wave0 with owed := [{ pc := 0x1000, regs := [3], lines := [0x80] }] }; (world w).wave 0 = some w ∧ w.owed ≠ []
      ∧ (world w).block w.block = some block0)
    ∧ (let p := store0 1; (∃ q ∈ [p], q.agent = p.agent ∧ ∃ c ∈ q.cells, ∃ d ∈ p.cells, c.1 = d.1)
      ∧ (¬ ∃ q ∈ [store0 2], q.agent = p.agent ∧ ∃ c ∈ q.cells, ∃ d ∈ p.cells, c.1 = d.1) ∧ (p.cells.map fun c => c.1).Nodup
      ∧ ([store0 2].filter fun q => q.agent == p.agent).length = 0)
    ∧ (∀ x ∈ [((0 : Nat), ([] : List Host.Cell))], x.1 ≠ 1)
    ∧ (∀ b : Bool, let w : Wave := { wave0 with log := [due b] }; w.log[0]? = some (due b) ∧ (due b).state = .resolved ∧ (due b).fabric = none
      ∧ w.wait ≠ .saved ∧ w.wait ≠ .halted ∧ (due b).holds = b ∧ (replayOf (due b).instr).isSome = true)
    ∧ (((due false).view { wave0 with regs := manyRows, badRows := [4] } []).struck (due false).instr = true
      ∧ ((due false).view { wave0 with regs := manyRows } []).struck (due false).instr = false)
    ∧ (({ wave0 with wait := .log } : Wave).wait = .log ∧ (world wave0).inFlight wave0 = false)
    ∧ (let w : Wave := { wave0 with heldTrap := some { cause := .step, lanes := 0, addr := 0 } }; w.heldTrap.isSome = true ∧ w.log = [])
    ∧ (let w : Wave := { wave0 with log := [{ openLog with state := .unresolvable .accessViolation }] }; w.heldTrap = none ∧ w.log ≠ [])
    ∧ (let w : Wave := { wave0 with wait := .owner 0 }; ((world w).unit 0).owner = none ∧ (0, w) ∈ (world w).waves)
    ∧ ((∀ f ∈ ((walkWorld (walkerWaits (.fault 6))).pav 0).faults, f.id ≠ 6) ∧ (∀ r ∈ (walkWorld (walkerWaits (.fabric 6))).fabric, r.group ≠ 6)
      ∧ (0 < Config.coverageInput → (walkWorld (walkerWaits (.cover [0, 1]))).coverRoom [0, 1] = true) ∧ up.pf.ualup = true ∧ (walkWorld walker0).walker 0 = some walker0
      ∧ walker0.wait = .none)
    ∧ (∀ b : Bool, let w := walkerWaits (.post { tag := 9, status := 0, payload := 0 } b false); (walkWorld w).walker 0 = some w
      ∧ (walkWorld w).canPost 0 w b = true ∧ (walkWorld { w with covers := 1 }).canPost 0 { w with covers := 1 } true = false)
    ∧ ((queryWorld.core 0).halted = false ∧ 0 < queryWorld.walkerSlots 0 ∧ Assoc.find (queryWorld.core 0).walkers 0 = none
      ∧ (queryWorld.hostOf 0).isSome = true ∧ isOk ((queryTaken.countRead 0 queryWalker 64).readProgram 0 (queryRead 0)) = true
      ∧ (match (queryTaken.countRead 0 queryWalker 64).readProgram 0 (queryRead 1) with
        | .error (.ended _ _) => true
        | _ => false) = true
      ∧ isOk (queryTaken.walkerRead 0 queryWalker .read 0x7000 64) = true)
    ∧ [log0].find? (fun y => y.pav == 0) = some log0 ∧ (faulted (world wave0) (.wave 0)).ringCount 0xA000 16 = some 16 := by
  refine ⟨?_, by decide +kernel, fun s line => ⟨by simp [mismatches], fun x hx => ?_⟩, by decide +kernel, by decide +kernel, by decide +kernel,
    by decide +kernel, by decide +kernel, by decide +kernel, by decide +kernel, by decide +kernel, by decide +kernel,
    ⟨by decide +kernel, by decide +kernel, fun hc => ?_, by decide +kernel, by decide +kernel, by decide +kernel⟩,
    by decide +kernel, by decide +kernel, by decide +kernel⟩
  rotate_left 2
  · simp only [State.coverRoom, List.all_cons, List.all_nil, Bool.and_true, Bool.and_eq_true, decide_eq_true_eq]
    exact ⟨hc, hc⟩
  · intro r hr
    simp only [List.mem_cons, List.not_mem_nil, or_false] at hr
    rcases hr with rfl | rfl | rfl | rfl | rfl <;> exact ⟨rfl, by simp [retries]⟩
  · rw [show x = s.lineCheck line + 1 by simpa [mismatches] using hx]
    bv_omega

/-- A halted wave, in a context that may be debugged, whose core's debug module has the buffer 0x20000 with the image of a wave that
resumes at 0x1004. -/
def halted0 : State :=
  { world { wave0 with wait := .halted } [(0x817C, 1, 3), (0x20000, 8, 0x1004)] with
    cores := [(0, { heapCore with dbg := { buf := 0x20000 } })], ctxs := [(1, { debuggable := true, drmap := false, fabkey := 0 })], pf := upPf }
/-- What RESTORE keeps of that wave. -/
def kept0 : SavedWave := { depth := 0, kinds := 0, step := false, priv := true, log := [] }
/-- The device before a pre-emption of pavilion 3, and while one is under way. -/
def stopping : State := { up with pavs := [(0, { busy := true, stopOwed := [.waves 0] })] }
/-- The same where the engine may not stop yet: its wave has a store that the partner card has not answered. -/
def unstoppable : State :=
  { world { wave0 with wait := .fabric 5 } with
    pavs := [(0, { ctxtab := 0x8000, ctxcount := 2, pctx := 1, goCtx := 1, busy := true, stopOwed := [.waves 0] })], fabric := [reqOf (.wave 0)] }

theorem witness_DebugAndPreemption :
    (let w : Wave := { wave0 with wait := .halted }; isHalted halted0 0 0 w ∧ halted0.debuggable (halted0.whoOf 0 w).pav (halted0.whoOf 0 w).ctx = true
      ∧ (∃ t, halted0.saveImage 0 w 0x20000 w.wsCause.toNat = some t)
      ∧ ∃ im, imageReads halted0 (halted0.whoOf 0 w) 0x20000 kept0 im ∧ imageLegal im w.gbudget.toNat (retainedRows w.log).length
        ∧ fieldOf im.head 0 8 % 4 = 0)
    ∧ (∀ w, ¬ isHalted (world wave0) 0 0 w)
    ∧ (∃ b x, (b, x) ∈ (world wave0).blocks ∧ x.pav = 0 ∧ (x.half 0).isSome = true)
    ∧ (∀ b x, (b, x) ∈ (world wave0).blocks → x.pav = 0 → (x.half 223).isSome = false)
    ∧ (let f : PhysFn := { upPf with bvctl := 17 }; f.drvfeat.getLsbD 3 = true ∧ f.bvctl.getLsbD 0 = true ∧ 8 ≤ (f.bvctl.extractLsb' 1 5).toNat
      ∧ (∀ b : Bool, ({ up with pf := f, tickDue := b } : State).tickDue = b)
      ∧ ({ up with pf := f, clock := 300 } : State).clock.toNat / 256 ≠ ({ up with pf := f, clock := 255 } : State).clock.toNat / 256)
    ∧ (up.pf.locked = true ∧ (stopping.pav 0).busy = true ∧ (up.pav 15).busy = false)
    ∧ (({ world wave0 with pf := upPf } : State).setPav 0 { (world wave0).pav 0 with pctx := 1, goCtx := 1, busy := true }).enginesOf 0 ≠ []
    ∧ (up.setPav 3 { up.pav 3 with pctx := 1, goCtx := 1, busy := true }).enginesOf 3 = []
    ∧ (EngineId.waves 0 ∈ (stopping.pav 0).stopOwed ∧ stopping.mayStop 0 (.waves 0) = true)
    ∧ (EngineId.waves 0 ∈ (unstoppable.pav 0).stopOwed ∧ unstoppable.mayStop 0 (.waves 0) = false)
    ∧ (wave0.handler = none ∧ (∀ p q d, wave0.wait ≠ .item p q d) ∧ wave0.wait ≠ .ending ∧ wave0.wait ≠ .saved ∧ wave0.wait ≠ .passed
      ∧ ∃ u, (world wave0 [(0x8180, 8, 0x40000)]).saveImage 0 wave0 ((world wave0 [(0x8180, 8, 0x40000)]).saveArea 0 1 0) 0 = some u)
    ∧ (Assoc.rising up.pavs = true ∧ (up.pav 0).savedBlocks = [] ∧ (up.pav 0).savedWork = {}
      ∧ up.strandedQueries (up.pav 0).savedWork = [])
    ∧ (up.pf.mapoutBusy = false ∧ up.hostedBy 111 = [111] ∧ (let m := { up with pf := { up.pf with mapout := BitVec.ofNat 7 111, mapoutBusy := true } }; m.pavsOn ([111] ++ m.newHosts [111]) = [])
      ∧ up.pf.mapoutPavs = [] ∧ 111 ∉ up.failed) := by
  refine ⟨⟨⟨rfl, .inl rfl⟩, by decide +kernel, some_of _ (by decide +kernel), ?_⟩, ?_, ⟨7, block0, List.mem_singleton.2 rfl, rfl, rfl⟩, ?_,
    by decide +kernel, by decide +kernel, by decide +kernel, by decide +kernel, by decide +kernel, by decide +kernel,
    ⟨rfl, (fun _ _ _ h => nomatch h), by decide, by decide, by decide, some_of _ (by decide +kernel)⟩, by decide +kernel, by decide +kernel, by decide +kernel,
    by decide +kernel, rfl, by decide +kernel⟩
  · obtain ⟨im, him, hp⟩ := any_of (imageAt halted0 (halted0.whoOf 0 { wave0 with wait := .halted }) 0x20000 kept0)
      (fun im => legal im && decide (fieldOf im.head 0 8 % 4 = 0)) (by decide +kernel)
    simp only [Bool.and_eq_true, decide_eq_true_eq, legal_iff] at hp
    exact ⟨im, imageReads_of _ _ _ _ _ him, hp.1, hp.2⟩
  · rintro w ⟨hw, h⟩
    cases Option.some.inj hw
    rcases h with h | h | h <;> cases h
  · intro b x h _
    cases List.mem_singleton.1 h
    rfl

/-- A queue of records homed on die `home` with one record, given by its memory at 0x3000, and a valid context 0. -/
def sched (home : Nat) (l : List (Nat × Nat × Nat)) (pred : Option Nat := none) : State :=
  { up with
    pavs := [(15, { ctxtab := 0x8000, ctxcount := 1, desc := [(255, descAt home 16)], queues := [(255, { tail := 1, predecessor := pred })] })],
    mem := memOf ((0x807C, 1, 1) :: (0x8018, 8, 0x100000) :: l) }

/-- A record of one wave; the same as a grid of 2 by 1 by 1 blocks; one whose extents are too big; and one that waits for a grid. -/
def recMem : List (Nat × Nat × Nat) := [(0x3000, 4, 0x4000), (0x3008, 4, 0x5210), (0x3017, 1, 1), (0x5000, 2, 8)]
def gridMem : List (Nat × Nat × Nat) := recMem ++ [(0x3016, 1, 1), (0x3038, 4, 1)]
def bigMem : List (Nat × Nat × Nat) := recMem ++ [(0x3016, 1, 1), (0x303C, 4, 2 ^ 18)]
def afterMem : List (Nat × Nat × Nat) := recMem ++ [(0x3016, 1, 1), (0x303C, 4, 2 ^ 17)]

/-- A persistent grid of two blocks of one wave. -/
def lastingMem : List (Nat × Nat × Nat) := recMem ++ [(0x3016, 1, 5), (0x3038, 4, 1)]

/-- What die `die` does next is to start the head of queue 255 of pavilion 15, of which `p` holds. -/
def nextStarts (s : State) (die : Nat) (p : Head → Bool) : Bool :=
  match s.queueHead die 15 255, s.chance die with
  | some h, some (.start h') => h == h' && p h
  | _, _ => false

/-- The launch header of a record is good. -/
def headerGood (s : State) (die : Nat) (h : Head) : Bool :=
  (recExtents h.record).isSome && s.ctxValid h.pav h.ctx && recordOk h.record
    && match s.distSpans die 15 h.ctx (recFrame h.record - 528).toNat 16 with
      | .ok l => (l.all fun x => !x.partner && !s.spanPoisoned x) && (headerFields (s.homeBytes l) h.mayPriv).isSome
      | .error _ => false

/-- A grid of `n` blocks of one wave, with these unplaced. -/
def gridWith (n : Nat) (l r : List Nat) (persistent : Bool := false) : Grid :=
  { pav := 0, ctx := 1, queue := none, home := 0, cls := 3, record := 0, isGrid := true, x := n, y := 1, z := 1, budget := 8, scratch := 256,
    priv := false, waves := 1, paired := false, persistent := persistent, unplaced := #v[l, r], received := #v[true, true] }

/-- The device with grid 3, and nothing else. -/
def gridWorld (g : Grid) : State := { up with grids := [(3, g)], mem := memOf [(0x817C, 1, 1)], pavs := [(0, { ctxtab := 0x8000, ctxcount := 2 })] }

/-- What die 0 does next is to place block `n` of grid 3 on one core. -/
def nextPlaces (s : State) (n : Nat) : Bool :=
  match s.chance 0 with
  | some (.place gid m _ [(_, slots, _)]) => gid == 3 && m == n && decide slots.Nodup
  | _ => false

/-- A stopped block without waves, which waits to return to core 0, and what die 0 does next is to return it. -/
def stoppedBlock : SavedBlock := { key := 7, cls := 3, block := { block0 with alive := [] }, waves := [], scratch := [([], [])] }
def stoppedWorld : State := { gridWorld (gridWith 1 [] []) with pavs := [(0, { ctxtab := 0x8000, ctxcount := 2, savedBlocks := [stoppedBlock] })] }
def nextReturns (s : State) : Bool :=
  match s.chance 0 with
  | some (.back pav b) => (s.tryReturn pav b).isSome
  | _ => false

/-- A wave blocked in `DEQ`, on an item queue with an item. -/
def waveI : Wave := { wave0 with wait := .item 0 3 240 }
def itemWorld : State :=
  { queued waveI [] with pavs := [(0, { ctxtab := 0x8000, ctxcount := 2, desc := (queued waveI []).pavs.head?.elim [] fun p => p.2.desc,
                                         queues := [(3, { tail := 1, waiting := [0] })] })] }

theorem witness_Scheduling :
    (∀ home < 2, nextStarts (sched home recMem) home (fun h => headerGood (sched home recMem) home h && !recPersistent h.record
          && (sched home recMem).headStruck h == none) = true
      ∧ (let t : State := { sched home recMem with poisoned := [0x3000 / 64] }; nextStarts t home (fun h => (t.headStruck h).isSome) = true)
      ∧ nextStarts (sched home gridMem) home (fun h => headerGood (sched home gridMem) home h && !recPersistent h.record) = true
      ∧ nextStarts (sched home afterMem) home (fun h => headerGood (sched home afterMem) home h && !recPersistent h.record
          && decide (recAfter h.record ≠ 0)) = true
      ∧ nextStarts (sched home bigMem) home (fun h => (recExtents h.record).isNone) = true
      ∧ nextStarts (sched home []) home (fun h => (recExtents h.record).isSome && !recordOk h.record) = true
      ∧ (let t : State := { sched home lastingMem with grids := [(3, { gridWith 1 [] [] true with pav := 15, ctx := 0 })] }
         nextStarts t home (fun h => headerGood t home h && recPersistent h.record && t.grids.any fun x =>
           x.2.persistent && x.2.pav == h.pav && x.2.ctx == h.ctx) = true)
      ∧ (up.chance home).isNone = true)
    ∧ (let g := gridWith 2 [] [0, 1]; Assoc.find (gridWorld g).grids 3 = some g ∧ (∀ die < 2, (gridWorld g).pf.ready.getLsbD (11 + die) = true)
      ∧ (gridWorld g).maySteal 0 3 g = true)
    ∧ (let g := gridWith 2 [0] [1] true; Assoc.find (gridWorld g).grids 3 = some g ∧ g.persistent = true ∧ g.admitted = false
      ∧ (∀ r ∈ g.received.toList, r = true) ∧ (gridWorld g).paused 0 1 = false
      ∧ (∀ x ∈ (gridWorld g).grids, g.cls ≤ x.2.cls) ∧ (gridWorld g).returning = [] ∧ ((gridWorld g).placeGrid 3 g).isSome = true)
    ∧ (let g := gridWith 1 [0] []; ((gridWorld g).admitHalf 0 1 8 256).isSome = true ∧ (gridWorld g).pf.ready.getLsbD 11 = true
      ∧ (∀ p ∈ (gridWorld g).pavs, p.2.savedWork.walkers = [] ∧ p.2.savedWork.fifo = [] ∧ p.2.savedWork.triangles = [])
      ∧ nextPlaces (gridWorld g) 0 = true ∧ (gridWorld g).descPoison g.pav g.ctx = none)
    ∧ (nextReturns stoppedWorld = true
      ∧ ∀ p ∈ stoppedWorld.pavs, p.2.savedWork.walkers = [] ∧ p.2.savedWork.fifo = [] ∧ p.2.savedWork.triangles = [])
    ∧ ((itemWorld.queue 0 3).waiting = [0] ∧ itemWorld.wave 0 = some waveI ∧ isCreated itemWorld 0 3 = true ∧ itemWorld.itemQueue 0 3 = true
      ∧ (itemWorld.queue 0 3).tail ≠ (itemWorld.queue 0 3).head ∧ (240#8).toNat ≤ 240 ∧ waveI.wsStep = false ∧ waveI.watchHit = none
      ∧ (itemWorld.core 0).halted = false ∧ itemWorld.headPoison 0 3 = none)
    ∧ (let w : Wave := { wave0 with wait := .ending }; (world w).wave 0 = some w ∧ (world w).block w.block = some block0
      ∧ block0.barriers = Vector.replicate 16 [] ∧ w.owed = [] ∧ w.log = [])
    ∧ (let s := { world wave0 with waves := [], blocks := [(7, { block0 with alive := [] })], grids := [(3, gridWith 1 [] [])] }
       s.block 7 = some { block0 with alive := [] } ∧ Assoc.find s.grids block0.grid = some (gridWith 1 [] []) ∧ s.blockBusy 7 = false
       ∧ (s.pav 0).busy = false ∧ 0 + 1 = 1 * 1 * 1 ∧ 0 + 1 ≠ 2 * 1 * 1)
    ∧ (pairsOk waveI.regs ∧ waveI.roomFor 32) := by
  refine ⟨by decide +kernel, by decide +kernel, by decide +kernel, by decide +kernel, by decide +kernel, by decide +kernel, by decide +kernel,
    by decide +kernel, ?_, rfl, by decide +kernel⟩
  exact regsWith_pairs []

/-- The head of a channel's queue copies 16 bytes, or has performed them. -/
def transfer0 (doneBytes : Nat) : Transfer :=
  { block := 7, uid := 1, core := 0, id := 1, doneBytes := doneBytes, regs := #v[0x2000, 0x3000, 0, 16, 0, 0, 0, 0] }
def copying (doneBytes : Nat) : State :=
  { world wave0 with cores := [(0, { heapCore with chans := #v[[transfer0 doneBytes], [], [], []] })] }
def copier : Who := { core := 0, pav := 0, ctx := 1, block := 7, uid := 1 }

/-- A unit whose only operation is `x`. -/
def opOf (x : MxKind) : MxOp := { id := 9, block := 7, uid := 1, core := 0, kind := x, joins := true }
def unitOf (x : MxKind) : State := { world wave0 with units := [(0, { owner := some 7, ops := [opOf x] })] }

/-- A reduction message to slot 3 of pair 0. -/
def redx0 : RedxMsg := { pair := 1, op := 9, pav := 0, ctx := 1, slot := 3, exp := 0, elems := [], poison := [] }

/-- A triangle in the unit of die 0, in a view of one pixel. -/
def triangle0 : Triangle :=
  { pav := 0, ctx := 1, core := 0, stream := 1, token := 0, query := none, view := 0x2040,
    viewRec := BitVec.ofNat 512 (2 ^ 64 + 2 ^ 80 + 2 ^ 96), prim := 4, verts := List.replicate 9 0 }
def covering (input binned : List Triangle) : State := (world wave0).setCover 0 { input := input, binned := binned }
/-- The tile store of die 0 holds one sample of tile 5. -/
def stored0 : State :=
  (world wave0).setCover 0 { store :=
    [(0x2000, { pav := 0, ctx := 1, tile := 5, value := 0x3F800000, va := 0x2000, page := 0, ord := 1, pub := false })] }

theorem witness_EngineSteps :
    (((copying 0).core 0).chans[0]?.getD []).find? (fun t => decide (t.doneBytes < t.total)) = some (transfer0 0)
    ∧ (copying 0).block (transfer0 0).block = some block0 ∧ (transfer0 0).kind = 0 ∧ (transfer0 0).fill = false
    ∧ (transfer0 0).fault = none ∧ (transfer0 0).fabric = none
    ∧ (∃ src, (copying 0).resolve copier .read false ((transfer0 0).reg 0 + BitVec.ofNat 64 0).toNat 16 = .ok src
      ∧ (src.all fun y => !y.partner && !(copying 0).spanPoisoned y && !(copying 0).peerHalted 0 y) = true)
    ∧ (∃ dst, (copying 0).resolve copier .write true ((transfer0 0).reg 1 + BitVec.ofNat 64 0).toNat 16 = .ok dst
      ∧ (dst.all fun y => !y.partner && !(copying 0).peerHalted 0 y) = true)
    ∧ (((copying 16).core 0).chans[0]?.getD []).find? (fun y => y.id == (transfer0 16).id && decide (y.total ≤ y.doneBytes)) = some (transfer0 16)
    ∧ (transfer0 16).co = false ∧ (∃ h, block0.halves = [h] ∧ (h.core = (transfer0 16).core ∧ h.retired = [] ∧ (h.done[0]?).getD 1 = (transfer0 16).id
      ∧ (h.done[3]?).getD 1 ≠ 0))
    ∧ (∀ op ∈ [ElementOp.store 0x2000 [5], .add 0x2000 .n32 false 3],
      (({ world wave0 with cores := [(0, { heapCore with inbox := [{ target := 0, block := 7, uid := 1, op := op }] })] } : State).core 0).halted = false)
    ∧ ((1#2) ≠ 3)
    ∧ (∀ x ∈ [MxKind.zero 0xFF, .cbload 3 (Vector.replicate 16 0), .acst 7 1 [(8191, 5)], .sacc 0 7 0x40000000],
      (unitAfter ((unitOf x).unit 0) x).isSome = true ∧ ((unitOf x).unit 0).ops = [opOf x] ∧ (opOf x).fault = none ∧ (opOf x).fabric = none
        ∧ (unitOf x).switchUnit 0 = unitOf x)
    ∧ ((unitOf (.zero 0)).operandClean { src := .regs [] [], ty := .s8 } = true
      ∧ 128 % 32 = 0)
    ∧ ((world wave0).core (2 * 0)).halted = false ∧ (unitOf (.zero 0)).redxTaken 0 redx0 = true
      ∧ ({ unitOf (.zero 0) with units := [] } : State).redxTaken 0 redx0 = false
    ∧ (((covering [triangle0] []).cover 0).input = [triangle0] ∧ ((covering [triangle0] []).cover 0).full 0 = false
      ∧ ∃ n, ((covering [triangle0] (List.replicate n triangle0)).cover 0).full 0 = true)
    ∧ (let v := covering [] [triangle0]; (v.cover 0).binned = [triangle0] ∧ (v.cover 0).next = some triangle0
      ∧ triangle0.fault = none ∧ triangle0.fabric = none
      ∧ isOk (v.sampleSpans { core := 0, pav := 0, ctx := 1, block := v.fresh, uid := 1 } triangle0
          ((triangle0.samples 0).filter fun x => !triangle0.resolved.contains x.1)) = true ∧ v.poisoned = []
      ∧ (∃ x ∈ touchedTiles triangle0.viewRec triangle0.verts, tileDie x.1 x.2 = 0 ∧ tileNumber triangle0.viewRec x.1 x.2 = 0)
      ∧ 0 ∉ triangle0.resolved ∧ (match v.resolveSamples 0 triangle0 ((triangle0.samples 0).filter fun x => x.1 == 0) with
        | .ok _ => true | .error _ => false) = true)
    ∧ (let out := (stored0.cover 0).store.filter fun x => x.2.tile == 5
       (stored0.cover 0).binned = [] ∧ out ≠ [] ∧ (∀ x ∈ out, stored0.paKind (stored0.sampleKey x.1 x.2) = .device ∧ x.2.ord ≠ 3)
         ∧ out.Pairwise (fun x y => stored0.sampleKey x.1 x.2 + 8 ≤ stored0.sampleKey y.1 y.2 ∨ stored0.sampleKey y.1 y.2 + 8 ≤ stored0.sampleKey x.1 x.2)) := by
  refine ⟨by decide +kernel, rfl, by decide +kernel, by decide +kernel, rfl, rfl, ok_any _ _ (by decide +kernel), ok_any _ _ (by decide +kernel),
    by decide +kernel, by decide +kernel, ⟨_, rfl, rfl, rfl, rfl, by decide +kernel⟩, by decide +kernel, by decide, ?_, by decide +kernel,
    by decide +kernel, by decide +kernel, by decide +kernel, ⟨by decide +kernel, ?_, Config.binRoom + 1, ?_⟩, by decide +kernel, by decide +kernel⟩
  · intro x hx
    simp only [List.mem_cons, List.not_mem_nil, or_false] at hx
    rcases hx with rfl | rfl | rfl | rfl <;> exact ⟨rfl, rfl, rfl, rfl, rfl⟩
  · simp [CoverageUnit.full, show ((covering [triangle0] []).cover 0).binsUsed 0 = 0 by decide +kernel]
  · have hb : ∀ n, ((covering [triangle0] (List.replicate n triangle0)).cover 0).binsUsed 0 = n := fun n => by
      have h1 : (((touchedTiles triangle0.viewRec triangle0.verts).filter fun x => tileDie x.1 x.2 == 0).filter fun x =>
          !triangle0.resolved.contains (tileNumber triangle0.viewRec x.1 x.2)).length = 1 := by decide +kernel
      show (List.map _ (List.replicate n triangle0)).sum = n
      rw [List.map_replicate, List.sum_replicate_nat, h1, Nat.mul_one]
    simp [CoverageUnit.full, hb]

/-- A core whose region 0 maps 0x1000 and 0x3000 to the same device page, where word `x` stands first (R413, R414). -/
def codeMem (x : Word) : List (Nat × Nat × Nat) :=
  [(0x8108, 8, 0x5000), (0x5020, 8, 0x201F), (0x5060, 8, 0x201F), (0x2000, 4, x.toNat)]
def codeCore (d : Debug) (l : Assoc Walker) : CoreState :=
  { heapLimit := 0, region := (Vector.replicate 8 0).set 0 1, dbg := d, walkers := l }

/-- The machine about to fetch word `x`, as its next move. -/
def fetching (x : Word) (d : Debug := {}) : State :=
  { world wave0 (codeMem x) with cores := [(0, codeCore d [(0, walker0)])], agenda := [.wave 0] }
/-- Reset with a word placed for the next step. -/
def placed (x : Nat) : State := State.reset.withFetchWord 32 x

theorem wordAt_of (s : State) (k : Nat) (w : Wave) (x : Word) (hp : w.pc.toNat < globalEnd)
    (h : (match s.resolve (s.whoOf k w) .fetch false w.pc.toNat 4 with
      | .ok l => (l.all fun y => !y.partner && !s.spanPoisoned y) && x == s.codeWord w l
      | .error _ => false) = true) : wordAt s k w x := by
  cases hl : s.resolve (s.whoOf k w) .fetch false w.pc.toNat 4 with
  | error e => rw [hl] at h; cases h
  | ok l =>
    rw [hl] at h
    simp only [Bool.and_eq_true, List.all_eq_true, Bool.not_eq_true', beq_iff_eq] at h
    exact ⟨hp, l, hl, h.1, h.2⟩

/-- A wave with an owed load of v8, one with an open log entry for v3, and one whose core has a breakpoint at its pc. -/
def owing : Wave := { wave0 with owed := [{ pc := 0x1000, regs := [8], lines := [0] }] }
def logging : Wave := { wave0 with log := [openLog] }
def stopAt : Debug := { attached := true, ctx := 1, breaks := Vector.replicate 8 0x1001 }
def breaking : State :=
  { fetching 0x230708FF stopAt with ctxs := [(1, { debuggable := true, drmap := false, fabkey := 0 })] }

/-- The record of the wave's block was launched when memory held nothing, and its context has stored to the word at 0x2000 since. -/
def launched0 : State := { fetching 0 with grids := [(block0.grid, { gridWith 1 [] [] with stored := [0x800] })] }

theorem witness_StepRuns :
    (let s := fetching 0x230708FF; let s₁ : State := { s with agenda := [] }
     s.tickDue = false ∧ nextIs s (.wave 0) [] ∧ s.wave 0 = some wave0 ∧ s₁.pickWave 0 = some 0 ∧ wave0.wait ≠ .passed
       ∧ s₁.selectable 0 wave0 = true ∧ wave0.struck (.addi 7 8 (-1)) = false ∧ wave0.mxCheck = none ∧ s₁.breaks 0 wave0 = false
       ∧ wordAt s₁ 0 wave0 0x230708FF ∧ decodeGyrix 0x230708FF = .ok (.addi 7 8 (-1)) ∧ s₁.logHolds 0 wave0 (.addi 7 8 (-1)) = false
       ∧ wave0.owes (.addi 7 8 (-1)) = false)
    ∧ (wordAt { fetching 0xFFFFFFFF with agenda := [] } 0 wave0 0xFFFFFFFF ∧ decodeGyrix 0xFFFFFFFF = .error .unassignedOpcode)
    ∧ (let s : State := { fetching 0x230708FF with agenda := [] }; wordAt s 0 owing 0x230708FF ∧ owing.owes (.addi 7 8 (-1)) = true)
    ∧ ((world logging).selectable 0 logging = true ∧ (world logging).logHolds 0 logging (.addi 3 8 (-1)) = true)
    ∧ (breaking.selectable 0 wave0 = true ∧ breaking.breaks 0 wave0 = true)
    ∧ (let w : Wave := { wave0 with wait := .phase }; (world w).selectable 0 w = false ∧ (world w).pickWave 0 ≠ some 0 ∧ (world w).wave 0 = some w)
    ∧ (let w : Wave := { wave0 with wait := .passed }; (world w).pickWave 0 = some 0)
    ∧ ({ wave0 with regs := manyRows, badRows := [8] } : Wave).struck (.addi 7 8 (-1)) = true
    ∧ (let w : Wave := { wave0 with mxCheck := some 1 }; (world w).selectable 0 w = true ∧ w.mxCheck = some 1)
    ∧ (let s : State := { fetching 0x7BFFFFFF with agenda := [.walker 0] }; let s₁ : State := { s with agenda := [] }
       s.tickDue = false ∧ nextIs s (.walker 0) [] ∧ s₁.pickWalker 0 (s₁.core 0) = some 0 ∧ s₁.walkerReady 0 walker0 = true ∧ walker0.start = .running
       ∧ walker0.pc.toNat < globalEnd ∧ (∃ bs, s₁.walkerRead 0 walker0 .fetch walker0.pc 4 = .ok bs))
    ∧ ((walkWorld { walker0 with start := .query }).walkerReady 0 { walker0 with start := .query } = true
      ∧ (walkWorld (walkerWaits (.fault 6))).walkerReady 0 (walkerWaits (.fault 6)) = false)
    ∧ (let s : State := { up with agenda := [.event .reset] }; nextIs s (.event .reset) [] ∧ isEvent .reset = true)
    ∧ (∀ b : Bool, ({ up with tickDue := b } : State).tickDue = b) ∧ (up.tickDue = false ∧ up.agenda = [] ∧ up.choices = []) ∧ ({ fetching 0 with agenda := [] } : State).choices ≠ []
    ∧ (world wave0).launchMemory wave0 = none ∧ (launched0.launchMemory wave0).isSome = true ∧ launched0.ownStored wave0 0x2000 = true
    ∧ launched0.ownStored wave0 0x2004 = false := by
  refine ⟨⟨rfl, rfl, rfl, by decide +kernel, by decide, by decide +kernel, by decide +kernel, rfl, by decide +kernel,
      wordAt_of _ _ _ _ (by decide +kernel) (by decide +kernel), rfl, by decide +kernel, by decide +kernel⟩,
    ⟨wordAt_of _ _ _ _ (by decide +kernel) (by decide +kernel), rfl⟩, ⟨wordAt_of _ _ _ _ (by decide +kernel) (by decide +kernel), by decide +kernel⟩,
    by decide +kernel, by decide +kernel, by decide +kernel, by decide +kernel, by decide +kernel, by decide +kernel,
    ⟨rfl, rfl, by decide +kernel, by decide +kernel, rfl, by decide +kernel, ok_of _ (by decide +kernel)⟩, by decide +kernel, ⟨rfl, rfl⟩,
    by decide, by decide +kernel, by decide +kernel, by decide +kernel, by decide +kernel, by decide +kernel, by decide +kernel⟩

theorem witness_DecodeEncode : (Instr.boxt 15 12).WellFormed ∧ encode (.boxt 15 12) = some (0x05#6 ++ 15#4 ++ 12#4 ++ 0#18)
    ∧ (Instr.deq 240 255).WellFormed ∧ encode (.deq 240 255) = some (0x93#8 ++ 240#8 ++ 255#8 ++ 0#8) := by decide +kernel

theorem witness_EncodeDecode : decodeGyrix (0xFE#8 ++ 0xFFFF#16 ++ 0xFF#8) = .error .unassignedOpcode
    ∧ decodeGyrix 0 = .ok .nop ∧ decodeGts (0x3F#6 ++ 0#26) = .error .unassignedOpcode ∧ decodeGts (0x1E#6 ++ 0x3FFF#26) = .ok (.jump (-1)) :=
  ⟨rfl, rfl, rfl, rfl⟩

/-- A canonical state whose next step executes. -/
theorem witness_MemoryCanonical : (placed 0).canonical = true ∧ ∃ t, step (placed 0) = .next t := by
  refine ⟨by decide +kernel, ?_⟩
  have h : (match step (placed 0) with | .next _ => true | _ => false) = true := by decide +kernel
  revert h
  cases step (placed 0) with
  | next t => exact fun _ => ⟨t, rfl⟩
  | fault f => exact fun h => nomatch h
  | refused r => exact fun h => nomatch h

/-! ### One instruction at a time

Expected values come from the spec's worked examples and tables, or from its formulas by hand. -/

/-- The wave after an instruction. -/
def afterWave (i : Instr) (s : State) : Option Wave :=
  match exec i s with
  | .next t => t.wave s.cur
  | _ => none

/-- Lanes 0 and 1 of a register after an instruction on registers that hold U values. -/
def gives (i : Instr) (wm : Word) (l : List (Nat × Word)) (r : Reg) : Option (Word × Word) :=
  (afterWave i (world { wave0 with wm := wm, regs := regsWith l })).map fun w => (lane w.regs r 0, lane w.regs r 1)
/-- The same of one value for every lane. -/
def givesU (i : Instr) (wm : Word) (l : List (Nat × Word)) (r : Reg) (x : Word) : Prop := gives i wm l r = some (x, x)

theorem test_add_wraps : givesU (.add 3 4 5) 0x40 [(4, 0xFFFFFFFF), (5, 2)] 3 1 := by unfold givesU; decide +kernel
theorem test_sub_clamps : givesU (.sub 3 4 5) 0x8040 [(4, 1), (5, 2)] 3 0 := by unfold givesU; decide +kernel
theorem test_mul_s8 : givesU (.mul 3 4 5) 0x10 [(4, 0x40), (5, 2)] 3 0xFFFFFF80 := by unfold givesU; decide +kernel
theorem test_mulh_signed : givesU (.mulh 3 4 5) 0x50 [(4, 0xFFFFFFFF), (5, 2)] 3 0xFFFFFFFF := by unfold givesU; decide +kernel
theorem test_mad_once : givesU (.mad 3 4 5) 0x8010 [(3, 0x80), (4, 0x10), (5, 0x10)] 3 0x7F := by unfold givesU; decide +kernel
theorem test_min_signed : givesU (.min 3 4 5) 0x50 [(4, 0x80000000), (5, 1)] 3 0x80000000 := by unfold givesU; decide +kernel
theorem test_max_unsigned : givesU (.max 3 4 5) 0x40 [(4, 0x80000000), (5, 1)] 3 0x80000000 := by unfold givesU; decide +kernel
/-- R102. -/
theorem test_abs_most_negative : givesU (.abs 3 4) 0x50 [(4, 0x80000000)] 3 0x80000000 := by unfold givesU; decide +kernel
theorem test_abs_saturates : givesU (.abs 3 4) 0x8050 [(4, 0x80000000)] 3 0x7FFFFFFF := by unfold givesU; decide +kernel
theorem test_neg_unsigned : givesU (.neg 3 4) 0x40 [(4, 1)] 3 0xFFFFFFFF := by unfold givesU; decide +kernel
/-- R100. -/
theorem test_not_n8 : givesU (.not 3 4) 0 [(4, 5)] 3 0xFA := by unfold givesU; decide +kernel
theorem test_shl_saturates : givesU (.shl 3 4 5) 0x8040 [(4, 3), (5, 31)] 3 0xFFFFFFFF := by unfold givesU; decide +kernel
theorem test_shr_arithmetic : givesU (.shr 3 4 5) 0x50 [(4, 0x80000000), (5, 35)] 3 0xF0000000 := by unfold givesU; decide +kernel
theorem test_clz_n8 : givesU (.clz 3 4) 0 [(4, 1)] 3 7 := by unfold givesU; decide +kernel
theorem test_popc_pair : givesU (.popc 6 4) 0x60 [(4, 0xF), (5, 0x80000000)] 6 5 := by unfold givesU; decide +kernel
theorem test_addi_negative : givesU (.addi 3 4 (-128)) 0x40 [(4, 0x80)] 3 0 := by unfold givesU; decide +kernel
theorem test_andi_zero_extends : givesU (.andi 3 4 0xFF) 0x40 [(4, 0xFFFF)] 3 0xFF := by unfold givesU; decide +kernel
theorem test_muli_negative : givesU (.muli 3 4 (-1)) 0x50 [(4, 7)] 3 0xFFFFFFF9 := by unfold givesU; decide +kernel
/-- R95: LDI sign-extends. -/
theorem test_ldi_sign : givesU (.ldi 3 0xFFFF) 0 [] 3 0xFFFFFFFF := by unfold givesU; decide +kernel
theorem test_ldih_keeps_low : givesU (.ldih 3 0x1234) 0 [(3, 0xABCD5678)] 3 0x12345678 := by unfold givesU; decide +kernel
theorem test_bfe_signed : givesU (.bfe 3 4 5) 0x50 [(4, 0xF0), (5, 4 + 4 <<< 8)] 3 0xFFFFFFFF := by unfold givesU; decide +kernel
theorem test_suba_clamps : givesU (.suba 3 2 3) 0x8040 [(4, 0), (5, 2), (6, 0), (7, 0)] 3 0xFFFFFFFF := by unfold givesU; decide +kernel

/-! The worked example of shapes, a guard and a pair. -/

/-- The example's wave as a step finds it. -/
def shaped (wm : Word) (R : Regs) (p1 : Word := 0) : State :=
  world { wave0 with gbudget := 8, wm := wm, regs := R, preds := wave0.preds.setIfInBounds 1 p1 }
def regs4 : Regs := regsWith [(1, 1), (4, 5)]
def ramp (R : Regs) (r : Nat) (b s : Word) : Regs := R.setIfInBounds r (.a (s ++ b))

theorem test_laneid_shape : (afterWave (.laneid 10) (shaped 0x40 regs4)).any (fun w => rd w.regs 10 == .a (1#32 ++ 0#32)) = true := by decide +kernel
theorem test_add_shape : (afterWave (.add 11 10 4) (shaped 0x40 (ramp regs4 10 0 1))).any (fun w => rd w.regs 11 == .a (1#32 ++ 5#32)) = true := by
  decide +kernel
theorem test_muli_shape : (afterWave (.muli 12 11 4) (shaped 0x40 (ramp regs4 11 5 1))).any (fun w => rd w.regs 12 == .a (4#32 ++ 20#32)) = true := by
  decide +kernel
theorem test_cmplt_example : (afterWave (.cmplt 1 10 4) (shaped 0x40 (ramp regs4 10 0 1))).any (fun w => predBits w 1 == 0x1F) = true := by decide +kernel
theorem test_add_guarded : (afterWave (.add 13 11 4) (shaped 0x41 (ramp regs4 11 5 1) 0x1F)).any (fun w =>
    (List.range 7).map (lane w.regs 13) == [10, 11, 12, 13, 14, 0, 0] && w.gused == 1) = true := by decide +kernel
theorem test_sub_stride_zero : (afterWave (.sub 14 11 10) (shaped 0x40 (ramp (ramp regs4 11 5 1) 10 0 1))).any (fun w => rd w.regs 14 == .u 5) = true := by
  decide +kernel
theorem test_lea4_affine : (afterWave (.lea4 8 0 10) (shaped 0x40 (ramp regs4 10 0 1))).any (fun w =>
    rd w.regs 16 == .a 0x100000000 && rd w.regs 17 == .p 4) = true := by decide +kernel

/-! Cross-lane instructions. -/

/-- The example of R116. -/
theorem test_vconflict_example :
    (afterWave (.vconflict 3 4) (world { wave0 with wm := 0x40, exec := 0xFF, regs := regs4.setIfInBounds 4 (.g (rowOf fun n =>
      [5, 3, 5, 7, 3, 5, 9, 7].getD n 0)) })).any (fun w => (List.range 8).map (lane w.regs 3) == [0, 0, 1, 0, 2, 5, 0, 8]) = true := by decide +kernel
theorem test_shfl_up : (afterWave (.shflup 3 10 2) (shaped 0x40 (ramp regs4 10 0 1))).any (fun w =>
    (List.range 4).map (lane w.regs 3) == [0, 1, 0, 1]) = true := by decide +kernel
theorem test_shfl_down : (afterWave (.shfldn 3 10 30) (shaped 0x40 (ramp regs4 10 0 1))).any (fun w =>
    (List.range 3).map (lane w.regs 3) == [30, 31, 2]) = true := by decide +kernel
theorem test_redadd : (afterWave (.redadd 3 10) (shaped 0x40 (ramp regs4 10 0 1))).any (fun w => lane w.regs 3 31 == 496) = true := by decide +kernel
theorem test_scanadd : (afterWave (.scanadd 3 10) (shaped 0x40 (ramp regs4 10 0 1))).any (fun w => lane w.regs 3 3 == 6) = true := by decide +kernel
theorem test_ballot_guard : (afterWave (.ballot 3 0) (shaped 0x41 regs4 0x0F)).any (fun w => lane w.regs 3 31 == 0x0F) = true := by decide +kernel

/-! Float instructions. -/

theorem test_fadd : givesU (.fadd 3 4 5) 0xA0 [(4, 0x3F800000), (5, 0x40000000)] 3 0x40400000 := by unfold givesU; decide +kernel
theorem test_fma_exact : givesU (.fma 3 4 5) 0xA0 [(3, 0x3F800000), (4, 0x40000000), (5, 0x40400000)] 3 0x40E00000 := by unfold givesU; decide +kernel
theorem test_fdiv_tie : givesU (.fdiv 3 4 5) 0xA0 [(4, 0x3F800000), (5, 0x40400000)] 3 0x3EAAAAAB := by unfold givesU; decide +kernel
theorem test_fsqrt : givesU (.fsqrt 3 4) 0xA0 [(4, 0x40800000)] 3 0x40000000 := by unfold givesU; decide +kernel
theorem test_frnd_even : givesU (.frnd 3 4) 0xA0 [(4, 0x40200000)] 3 0x40000000 := by unfold givesU; decide +kernel
theorem test_fneg_nan : givesU (.fneg 3 4) 0xA0 [(4, 0x3F800000)] 3 0xBF800000 := by unfold givesU; decide +kernel
/-- The table of R129. -/
theorem test_cvt_e4m3 : givesU (.cvt 3 4) 0x0AC0 [(4, 0x43FA0000)] 3 0x7F ∧ givesU (.cvt 3 4) 0x8AC0 [(4, 0x43FA0000)] 3 0x7E
    ∧ givesU (.cvt 3 4) 0x0AC0 [(4, 0x3E99999A)] 3 0x2A ∧ givesU (.cvt 3 4) 0x0AC0 [(4, 0x43E60000)] 3 0x7E := by
  unfold givesU; decide +kernel
theorem test_cvt_integer : givesU (.cvt 3 4) 0x0A50 [(4, 0xC0600000)] 3 0xFFFFFFFC ∧ givesU (.cvt 3 4) 0x0A00 [(4, 0x43965A00)] 3 0xFF := by
  unfold givesU; decide +kernel
/-- The worked example of stochastic rounding. -/
theorem test_fadd_stochastic :
    (afterWave (.cvt 5 4) (world { wave0 with wm := 0x5A91, rseed := 0x6A5D39C1, preds := wave0.preds.setIfInBounds 1 7, regs := regs4.setIfInBounds 4 (.g (rowOf fun n =>
      [0x3F80A000, 0x3F804000, 0x3F800000].getD n 0)) })).any (fun w =>
        (List.range 4).map (lane w.regs 5) == [0x3F81, 0x3F80, 0x3F80, 0] && w.rseed == 0x6D53A739) = true := by decide +kernel
/-- R130: two packs leave x0 to x3, and UNPK takes one out. -/
theorem test_pack_8 : givesU (.pack 3 4 5) 0x00 [(3, 0xAABBCCDD), (4, 1), (5, 2)] 3 0x0201AABB := by unfold givesU; decide +kernel
theorem test_unpk_signed : givesU (.unpk 3 4 1) 0x10 [(4, 0x8000)] 3 0xFFFFFF80 := by unfold givesU; decide +kernel

/-! Mode, control and divergence. -/

theorem test_modeh : (afterWave (.modeh 0x23) (world wave0)).any (fun w => w.wm == 0x230040) = true := by decide +kernel
theorem test_bra_back : (afterWave (.bra (-12)) (world wave0)).any (fun w => w.pc == 0xFD0) = true := by decide +kernel
theorem test_call_lr : (afterWave (.call 2) (world wave0)).any (fun w => w.pc == 0x1008 && w.lr == 0x1004) = true := by decide +kernel
theorem test_if_empty : (afterWave (.ifLanes 4) (world { wave0 with wm := 1 })).any (fun w =>
    w.exec == 0 && w.pc == 0x1010 && w.masks == [0xFFFFFFFFFFFFFFFF] && w.depth == 1) = true := by decide +kernel
theorem test_else : (afterWave (.elseLanes 4) (world { wave0 with exec := 1, depth := 1, masks := [0xFFFFFFFEFFFFFFFF] })).any (fun w =>
    w.exec == 0xFFFFFFFE && w.pc == 0x1004 && w.masks == [0xFFFFFFFF]) = true := by decide +kernel
theorem test_endif_underflow : ∃ t, exec .endIf (world wave0) = .next t ∧ t.wave 0 = none := by
  refine ⟨_, rfl, ?_⟩
  decide +kernel
/-- R245: an entry of depth 17 spills the eight oldest to FP − 512 (R65 for waves): a push to depth 17 stores the entry of depth 1. -/
theorem test_if_spills : (match exec (.ifLanes 4) (world { wave0 with depth := 16, masks := List.replicate 15 0 ++ [0x1234] }) with
    | .next t => decide (t.stores.map (fun p => p.cells) = [(List.range 8).map fun k => (0x10000 - 512 + k, (leBytes 0x1234 8).getD k 0)])
        && (t.wave 0).any fun w => w.depth == 17 && w.masks.length == 16
    | _ => false) = true := by decide +kernel

/-! Memory. -/

theorem test_ld_offset : (afterWave (.ld 3 2 (-2)) (world { wave0 with wm := 0xA0, regs := regsWith [(4, 0x2008)] } [(0x2000, 4, 0xCAFE)])).any
    (fun w => lane w.regs 3 0 == 0xCAFE) = true := by decide +kernel
theorem test_ld_s8 : (afterWave (.ld 3 2 1) (world { wave0 with wm := 0x10, regs := regsWith [(4, 0x2000)] } [(0x2001, 1, 0x80)])).any
    (fun w => lane w.regs 3 0 == 0xFFFFFF80) = true := by decide +kernel
theorem test_aadd_lanes : (match exec (.aadd 3 2 6) (world { wave0 with wm := 0x40, exec := 7, regs := regsWith [(4, 0x2000), (6, 5)] } [(0x2000, 4, 1)]) with
    | .next t => t.mem.readLE 0x2000 4 == 16 && (t.wave 0).any fun w => (List.range 3).map (lane w.regs 3) == [1, 6, 11]
    | _ => false) = true := by decide +kernel
theorem test_acas_differs : (match exec (.acas 3 2 6) (world { wave0 with wm := 0x40, exec := 1, regs := regsWith [(3, 2), (4, 0x2000), (6, 5)] } [(0x2000, 4, 1)]) with
    | .next t => t.mem.readLE 0x2000 4 == 1 && (t.wave 0).any fun w => lane w.regs 3 0 == 1
    | _ => false) = true := by decide +kernel
/-- R166: the last arrival and its transactions advance the phase. -/
theorem test_arrive : (match exec (.arrive 3 0) (world { wave0 with wm := 0x40 } [(scratchKey 0 0 + 4, 2, 1), (scratchKey 0 0 + 6, 2, 1)]) with
    | .next t => (t.object (scratchKey 0 0)).phase == 1 && (t.object (scratchKey 0 0)).pendarr == 1 && (t.wave 0).any fun w => lane w.regs 3 0 == 0
    | _ => false) = true := by decide +kernel
/-- The example of R360. -/
theorem test_sgnproj_example : (afterWave (.sgnproj 8 2 6) (world { wave0 with wm := 0xA0, exec := 1, regs := regsWith [(4, 0x2000), (6, 0x6A5D39C1), (8, 2 + 3 <<< 8)] }
    [(0x2000, 4, 0x3F800000), (0x2004, 4, 0x40000000), (0x2008, 4, 0x3F000000)])).any (fun w => lane w.regs 8 0 == 2) = true := by decide +kernel
theorem test_sgnproj_zero : (afterWave (.sgnproj 8 2 6) (world { wave0 with wm := 0xA0, exec := 1, regs := regsWith [(4, 0x2000), (6, 0x6A5D39C1), (8, 2 + 3 <<< 8)] }
    [(0x2000, 4, 0x3F800000), (0x2004, 4, 0x3F800000), (0x2008, 4, 0x40000000)])).any (fun w => lane w.regs 8 0 == 0) = true := by decide +kernel

/-! Traversal. -/

/-- The walker after an instruction. -/
def afterWalker (i : Instr) (w : Walker) : Option Walker :=
  match exec i (walkWorld w) with
  | .next t => t.walker 0
  | _ => none
def withRegs (w : Walker) (l : List (Nat × DWord)) : Walker := { w with w := l.foldl (fun R x => R.setIfInBounds x.1 x.2) w.w }

/-- The example of R261. -/
theorem test_boxt_example : (afterWalker (.boxt 5 8) (withRegs walker0
    [(8, 0x3F000000BF800000), (9, 0x000000003F000000), (10, 0x000000003F800000), (11, 0x4120000000000000)])).any
      (fun w => w.reg 5 == 0x3F80000000000001 && w.f) = true := by decide +kernel
theorem test_boxt_miss : (afterWalker (.boxt 5 8) (withRegs walker0
    [(8, 0x40000000BF800000), (9, 0x000000003F000000), (10, 0x000000003F800000), (11, 0x4120000000000000)])).any
      (fun w => w.reg 5 == 0 && !w.f) = true := by decide +kernel

/-- The node of R265: COUNT 3 and keys 10, 20 and 30 as s32. -/
def keyWalker : Walker :=
  { walker0 with nodebuf := leBytes 3 4 ++ leBytes 10 4 ++ leBytes 20 4 ++ leBytes 30 4 ++ leBytes 0 48, prog := { prog0 with decoders :=
      [decoderBytes ([fieldWord 8 8 0] ++ (List.range 3).map fun k => 2 ^ 18 + fieldWord 6 32 (32 + 32 * k))] } }
theorem test_krange_example : (afterWalker (.krange 6 3 4) (withRegs keyWalker [(3, 15), (4, 30)])).any
    (fun w => w.reg 6 == 0x0000000E00000006 && w.f) = true := by decide +kernel
theorem test_kcmp_modes : (afterWalker (.kcmp 6 3 0) (withRegs keyWalker [(3, 20)])).any (fun w => w.reg 6 == 1 && w.f) = true
    ∧ (afterWalker (.kcmp 6 3 1) (withRegs keyWalker [(3, 20)])).any (fun w => w.reg 6 == 2 && w.f) = true := by decide +kernel
theorem test_gts_add_imm : (afterWalker (.gtsAddImm 2 1 (-1)) (withRegs walker0 [(1, 0)])).any (fun w => w.reg 2 == 0xFFFFFFFFFFFFFFFF) = true := by decide +kernel
theorem test_pop_empty : (afterWalker (.pop 2) { walker0 with f := true }).any (fun w => !w.f && w.reg 2 == 1) = true := by decide +kernel

/-! Whole steps, from the fetched word. -/

/-- `MODE et=bf16, st=f32, rm=sr, gp=p1` as the spec encodes it. -/
theorem test_step_model : (match step (placed 0x01005A91) with | .next t => (t.wave 0).any (fun w => w.wm == 0x5A91 && w.pc == 4) | _ => false) = true := by
  decide +kernel
/-- `BRA` to itself. -/
theorem test_step_bra : (match step (placed 0x80000000) with | .next t => (t.wave 0).any (fun w => w.pc == 0) | _ => false) = true := by decide +kernel

end Sys2Proof.Tests
end

section
/-! How an instruction of a wave is seen to complete with one write, or to trap, where its effect also reads the machine or stops:
the companions of `own_lanes` and `issueOwn_ok`. They take an instruction's effect from the equation of `exec` with it; given as
`Eq.refl` of the instruction's own definition, that equation shows the effect without writing it out again. -/

namespace Sys2Proof.Machine

/-- A typed write leaves what the statements say of one (R48, R49, R52). -/
theorem lanesWritten_writeT (R : Regs) (hR : pairsOk R) (act : Word) (t : ETy) (d : Reg) (f : Nat → DWord) (sh : Shape)
    (hf : act = fullMask → fitsT t f sh) : lanesWritten R (writeT R act t d f sh) act t d f :=
  ⟨pairsOk_writeT R hR act t d f sh, fun n hn => laneT_writeT R hR act t d f sh hf n hn,
    fun r hr n hn => lane_writeT_other R hR act t d f sh hf r hr n hn⟩

/-- An instruction that reads the machine and writes one typed destination in a shape its lanes fit. -/
theorem issue_lanes (i : Instr) (s : State) (w : Wave) (h : s.runs w) (eff : State → Wave → Run (State × Wave)) (act : Word)
    (t : ETy) (d : Reg) (f : Nat → DWord) (sh : Shape) (hx : exec i s = issue i s eff)
    (he : eff s w.issued = .ok (s, { w.issued with regs := writeT w.regs act t d f sh })) (hf : act = fullMask → fitsT t f sh)
    (hk : keepsL1 w.atIssue i = true := by rfl) : writesLanes i s w act t d f := by
  obtain ⟨hw, hR⟩ := h
  refine ⟨_, ?_, lanesWritten_writeT w.regs hR act t d f sh hf⟩
  rw [hx, issue_ok i s s w _ w eff hw he hw, hk]
  rfl

/-- An instruction that changes only its own wave and does not wait. -/
theorem own_completes (i : Instr) (s : State) (w w' : Wave) (eff : Wave → Run Wave) (hw : s.wave s.cur = some w)
    (hx : exec i s = issueOwn i s eff) (he : eff w.issued = .ok w') (hwait : w'.wait = .none)
    (hk : keepsL1 w.atIssue i = true := by rfl) : exec i s = .next (s.onlyWave { w' with answers := [], retired := true }) := by
  rw [hx, issueOwn_ok i s w w' eff hw he hk, hwait]
  rfl

/-- An instruction that changes only its own wave and traps. -/
theorem own_traps (i : Instr) (s : State) (w : Wave) (eff : Wave → Run Wave) (hw : s.wave s.cur = some w)
    (hx : exec i s = issueOwn i s eff) {c : Cause} {lanes : Word} {addr : DWord}
    (he : eff w.issued = trapAt c lanes addr) : trapsAt i s w c lanes addr := by
  rw [trapsAt, hx]
  exact issue_trap i s w _ _ hw (by rw [he]; rfl)

end Sys2Proof.Machine
end

section
/-! The integer instructions of R100 to R103. Each lemma covers one of the forms that instructions are built from in the model:
the exact result of every active lane is fitted to the type, and the shape that R105 gives the result holds it. An A shape stands
for a progression modulo 2^32 (R45), so what remains per row is that its result progresses when its operands do. -/

namespace Sys2Proof.Machine

open Sys2Proof.Claims

/-! ### Results that an A shape can hold -/

/-- The low words of the lane results step by one stride. -/
def Progresses (x : Nat → Int) : Prop := ∃ b st : Word, ∀ n, BitVec.ofInt 32 (x n) = b + BitVec.ofNat 32 n * st

theorem progresses_const (c : Int) : Progresses fun _ => c := ⟨BitVec.ofInt 32 c, 0, fun _ => by simp⟩

theorem Progresses.add {x y : Nat → Int} (hx : Progresses x) (hy : Progresses y) : Progresses fun n => x n + y n := by
  simpa only [Progresses, BitVec.ofInt_add] using progression_add hx hy

theorem Progresses.neg {x : Nat → Int} (hx : Progresses x) : Progresses fun n => -x n := by
  simpa only [Progresses, BitVec.ofInt_neg] using progression_neg hx

theorem Progresses.sub {x y : Nat → Int} (hx : Progresses x) (hy : Progresses y) : Progresses fun n => x n - y n := by
  simpa only [Int.sub_eq_add_neg] using hx.add hy.neg

theorem Progresses.mul_const {x : Nat → Int} (hx : Progresses x) (c : Int) : Progresses fun n => x n * c := by
  simpa only [Progresses, BitVec.ofInt_mul] using progression_scale hx (BitVec.ofInt 32 c)

theorem Progresses.const_mul {x : Nat → Int} (hx : Progresses x) (c : Int) : Progresses fun n => c * x n := by
  simpa only [Int.mul_comm c] using hx.mul_const c

/-- An operand that is A. -/
theorem progresses_intLane_of_a (w : Wave) {r : Reg} (ht : setInt32 (wmET w.wm) = true) (h : w.shapeOf r = .a) :
    Progresses (w.intLane (wmET w.wm) r) := intLane_progression w r ht (by rw [h]; exact Shape.noConfusion)

/-- A product progresses where R105 calls it A: one factor is then the same in all lanes. -/
theorem progresses_product (w : Wave) {a b : Reg} (ht : setInt32 (wmET w.wm) = true)
    (h : (w.shapeOf a).scaled (w.shapeOf b) = .a) :
    Progresses fun n => w.intLane (wmET w.wm) a n * w.intLane (wmET w.wm) b n := by
  rcases scaled_a h with ⟨ha, hb⟩ | ⟨ha, hb⟩
  · simp only [intLane_of_u w b hb]
    exact (progresses_intLane_of_a w ht ha).mul_const _
  · simp only [intLane_of_u w a ha]
    exact (progresses_intLane_of_a w ht hb).const_mul _

/-- The count of a shift whose count register is U. -/
theorem shiftCount_of_u (w : Wave) (t : ETy) (b : Reg) (h : shape32 w.regs b = .u) (n : Nat) :
    w.shiftCount t b n = w.shiftCount t b 0 := by
  unfold Wave.shiftCount; rw [lane_of_u w.regs b h n]

/-- A register shifted left progresses where R105 calls it A: the count is then the same in all lanes. -/
theorem progresses_shifted (w : Wave) {a b : Reg} (ht : setInt32 (wmET w.wm) = true)
    (h : (w.shapeOf a).shifted (shape32 w.regs b) = .a) :
    Progresses fun n => shiftUp (w.intLane (wmET w.wm) a n) (w.shiftCount (wmET w.wm) b n) := by
  obtain ⟨ha, hb⟩ := shifted_a h
  simp only [shiftCount_of_u w _ b hb]
  exact (progresses_intLane_of_a w ht ha).mul_const _

/-! ### The forms -/

/-- The instruction completes and its active lanes get the results `x`, fitted to the type (R86, R87). -/
def writesFitted (i : Instr) (s : State) (w : Wave) (sat : Bool) (d : Reg) (x : Nat → Int) : Prop :=
  writesLanes i s w (activeMask w) (wmET w.wm) d fun n => (wmET w.wm).fit (sat && wmSAT w.wm) (x n)

section
variable {s : State} {w : Wave} {i : Instr} {sat : Bool} {d a b : Reg}
variable (h : s.runs w) (hroom : w.roomFor 2) (ht : setInt (wmET w.wm) = true)
include h hroom ht

/-- Two registers, by what the shape function asks of them. -/
theorem intBin_fitted {sh : Shape → Shape → Shape} {f : Int → Int → Int} (hx : exec i s = intBin i sat sh d a b f s)
    (hf : [d, a, b].all (widened (wmET w.wm)) = true) (hu : ∀ {x y}, sh x y = .u → x = .u ∧ y = .u)
    (ha : sh (w.shapeOf a) (w.shapeOf b) = .a → setInt32 (wmET w.wm) = true →
      Progresses fun n => f (w.intLane (wmET w.wm) a n) (w.intLane (wmET w.wm) b n))
    (hk : keepsL1 w.atIssue i = true := by rfl) :
    writesFitted i s w sat d fun n => f (w.intLane (wmET w.wm) a n) (w.intLane (wmET w.wm) b n) :=
  int_lanes i s w h hroom d [d, a, b] sat (fun w => sh (w.shapeOf a) (w.shapeOf b))
    (fun w t n => f (w.intLane t a n) (w.intLane t b n)) hx ht hf
    (fun e n => by obtain ⟨ea, eb⟩ := hu e; rw [intLane_of_u w a ea n, intLane_of_u w b eb n]) ha rfl rfl hk

/-- Two registers added or subtracted. -/
theorem intBin_sum_fitted {f : Int → Int → Int} (hx : exec i s = intBin i sat Shape.sum d a b f s)
    (hf : [d, a, b].all (widened (wmET w.wm)) = true)
    (hp : ∀ {x y : Nat → Int}, Progresses x → Progresses y → Progresses fun n => f (x n) (y n))
    (hk : keepsL1 w.atIssue i = true := by rfl) :
    writesFitted i s w sat d fun n => f (w.intLane (wmET w.wm) a n) (w.intLane (wmET w.wm) b n) :=
  intBin_fitted h hroom ht hx hf sum_u
    (fun e h32 => hp (intLane_progression w a h32 (sum_a e).1) (intLane_progression w b h32 (sum_a e).2)) hk

/-- Two registers in the last row of R105. -/
theorem intBin_plain_fitted {f : Int → Int → Int} (hx : exec i s = intBin i sat Shape.plain d a b f s)
    (hf : [d, a, b].all (widened (wmET w.wm)) = true) (hk : keepsL1 w.atIssue i = true := by rfl) :
    writesFitted i s w sat d fun n => f (w.intLane (wmET w.wm) a n) (w.intLane (wmET w.wm) b n) :=
  intBin_fitted h hroom ht hx hf plain_u (fun e => absurd e (plain_not_a _ _)) hk

/-- One register, by what the shape function asks of it. -/
theorem intUn_fitted {sh : Shape → Shape} {f : ETy → Int → Int} (hx : exec i s = intUn i sat sh d a f s)
    (hf : [d, a].all (widened (wmET w.wm)) = true) (hu : ∀ {x}, sh x = .u → x = .u)
    (ha : sh (w.shapeOf a) = .a → setInt32 (wmET w.wm) = true → Progresses fun n => f (wmET w.wm) (w.intLane (wmET w.wm) a n))
    (hk : keepsL1 w.atIssue i = true := by rfl) :
    writesFitted i s w sat d fun n => f (wmET w.wm) (w.intLane (wmET w.wm) a n) :=
  int_lanes i s w h hroom d [d, a] sat (fun w => sh (w.shapeOf a)) (fun w t n => f t (w.intLane t a n)) hx ht hf
    (fun e n => by rw [intLane_of_u w a (hu e) n]) ha rfl rfl hk

/-- One register whose result keeps the operand's shape. -/
theorem intUn_id_fitted {f : ETy → Int → Int} (hx : exec i s = intUn i sat id d a f s)
    (hf : [d, a].all (widened (wmET w.wm)) = true)
    (hp : ∀ {x : Nat → Int}, Progresses x → Progresses fun n => f (wmET w.wm) (x n))
    (hk : keepsL1 w.atIssue i = true := by rfl) :
    writesFitted i s w sat d fun n => f (wmET w.wm) (w.intLane (wmET w.wm) a n) :=
  intUn_fitted h hroom ht hx hf id (fun e h32 => hp (progresses_intLane_of_a w h32 e)) hk

/-- One register in the last row of R105. -/
theorem intUn_flat_fitted {f : ETy → Int → Int} (hx : exec i s = intUn i sat Shape.flat d a f s)
    (hf : [d, a].all (widened (wmET w.wm)) = true) (hk : keepsL1 w.atIssue i = true := by rfl) :
    writesFitted i s w sat d fun n => f (wmET w.wm) (w.intLane (wmET w.wm) a n) :=
  intUn_fitted h hroom ht hx hf flat_u (fun e => absurd e (flat_not_a _)) hk

/-- A shift by a register, which counts with its shape as a 32-bit operand. -/
theorem shiftReg_fitted {sh : Shape → Shape → Shape} {f : Int → Nat → Int} (hx : exec i s = shiftReg i sat d a b sh f s)
    (hf : [d, a].all (widened (wmET w.wm)) = true) (hu : ∀ {x y}, sh x y = .u → x = .u ∧ y = .u)
    (ha : sh (w.shapeOf a) (shape32 w.regs b) = .a → setInt32 (wmET w.wm) = true →
      Progresses fun n => f (w.intLane (wmET w.wm) a n) (w.shiftCount (wmET w.wm) b n))
    (hk : keepsL1 w.atIssue i = true := by rfl) :
    writesFitted i s w sat d fun n => f (w.intLane (wmET w.wm) a n) (w.shiftCount (wmET w.wm) b n) :=
  int_lanes i s w h hroom d [d, a] sat (fun w => sh (w.shapeOf a) (shape32 w.regs b))
    (fun w t n => f (w.intLane t a n) (w.shiftCount t b n)) hx ht hf
    (fun e n => by obtain ⟨ea, eb⟩ := hu e; rw [intLane_of_u w a ea n, shiftCount_of_u w _ b eb n]) ha rfl rfl hk

/-- A shift by a number that the type allows (R101). -/
theorem shiftImm_fitted {sh : Shape → Shape} {f : Int → Nat → Int} {c : BitVec 6}
    (hx : exec i s = shiftImm i sat d a c sh f s) (hc : ¬ (c.getLsbD 5 = true ∧ (wmET w.wm).width ≤ 32))
    (hf : [d, a].all (widened (wmET w.wm)) = true)
    (hu : ∀ {x}, sh x = .u → x = .u)
    (ha : sh (w.shapeOf a) = .a → setInt32 (wmET w.wm) = true → Progresses fun n => f (w.intLane (wmET w.wm) a n) c.toNat)
    (hk : keepsL1 w.atIssue i = true := by rfl) :
    writesFitted i s w sat d fun n => f (w.intLane (wmET w.wm) a n) c.toNat := by
  refine own_lanes i s w h _ _ _ _ _ _ hx ?_ (fun _ => fitsT_keepA _ _ (sh (w.shapeOf a)) _ ?_ ha sat) hk
  · exact (if_neg hc).trans (intOp_ok w.issued hroom d [d, a] sat _ _ ht hf)
  · exact fun e n => by rw [intLane_of_u w a (hu e) n]

/-- `MULH` is the one product that is never A (R105). -/
theorem mulh_fitted (hf : [d, a, b].all (widened (wmET w.wm)) = true) : writesFitted (.mulh d a b) s w false d fun n =>
    w.intLane (wmET w.wm) a n * w.intLane (wmET w.wm) b n / 2 ^ (wmET w.wm).width :=
  int_lanes _ s w h hroom d [d, a, b] false (fun w => (w.shapeOf a).plain (w.shapeOf b))
    (fun w t n => w.intLane t a n * w.intLane t b n / 2 ^ t.width) rfl ht hf
    (fun e n => by obtain ⟨ea, eb⟩ := plain_u e; rw [intLane_of_u w a ea n, intLane_of_u w b eb n])
    (fun e => absurd e (plain_not_a _ _)) rfl rfl

theorem mad_fitted (hf : [d, a, b].all (widened (wmET w.wm)) = true) : writesFitted (.mad d a b) s w true d fun n =>
    w.intLane (wmET w.wm) d n + w.intLane (wmET w.wm) a n * w.intLane (wmET w.wm) b n := by
  refine int_lanes _ s w h hroom d [d, a, b] true (fun w => madShape ((w.shapeOf a).scaled (w.shapeOf b)) (w.shapeOf d))
    (fun w t n => w.intLane t d n + w.intLane t a n * w.intLane t b n) rfl ht hf ?_ ?_ rfl rfl
  · intro e n
    obtain ⟨ep, ed⟩ := madShape_u e
    obtain ⟨ea, eb⟩ := scaled_u ep
    rw [intLane_of_u w d ed n, intLane_of_u w a ea n, intLane_of_u w b eb n]
  · intro e h32
    obtain ⟨ep, ed⟩ := madShape_a e
    exact Progresses.add (intLane_progression w d h32 ed) (progresses_product w h32 ep)

end

/-- R101: what the claim asks of an immediate count is what the instruction checks. -/
theorem immCount_ok {c : BitVec 6} {n : Nat} (h : (!c.getLsbD 5 || decide (32 < n)) = true) :
    ¬ (c.getLsbD 5 = true ∧ n ≤ 32) := by
  rintro ⟨hc, hn⟩
  rw [hc, decide_eq_false (by omega)] at h
  exact absurd h (by decide)

/-- Settles O1: every row of R100 to R103 has one of the forms above. -/
theorem integerResults : Obligations.IntegerResults := by
  unfold Obligations.IntegerResults
  intro s w i x h hroom ht hrow hf
  cases i with
  | add d a b =>
    cases hrow
    exact intBin_sum_fitted (f := fun x y => x + y) h hroom ht rfl hf Progresses.add
  | sub d a b =>
    cases hrow
    exact intBin_sum_fitted (f := fun x y => x - y) h hroom ht rfl hf Progresses.sub
  | mul d a b =>
    cases hrow
    exact intBin_fitted (f := fun x y => x * y) h hroom ht rfl hf scaled_u fun e h32 => progresses_product w h32 e
  | mulh d a b =>
    cases hrow
    exact mulh_fitted h hroom ht hf
  | mad d a b =>
    cases hrow
    exact mad_fitted h hroom ht hf
  | min d a b =>
    cases hrow
    exact intBin_plain_fitted (f := fun x y => if y < x then y else x) h hroom ht rfl hf
  | max d a b =>
    cases hrow
    exact intBin_plain_fitted (f := fun x y => if x < y then y else x) h hroom ht rfl hf
  | abs d a =>
    cases hrow
    exact intUn_flat_fitted (f := fun _ x => if x < 0 then -x else x) h hroom ht rfl hf
  | neg d a =>
    cases hrow
    exact intUn_id_fitted (f := fun _ x => -x) h hroom ht rfl hf Progresses.neg
  | and d a b =>
    cases hrow
    exact intBin_plain_fitted (f := bitwise fun x y => x &&& y) h hroom ht rfl hf
  | or d a b =>
    cases hrow
    exact intBin_plain_fitted (f := bitwise fun x y => x ||| y) h hroom ht rfl hf
  | xor d a b =>
    cases hrow
    exact intBin_plain_fitted (f := bitwise fun x y => x ^^^ y) h hroom ht rfl hf
  | not d a =>
    cases hrow
    exact intUn_id_fitted (f := fun _ x => -1 - x) h hroom ht rfl hf (progresses_const (-1)).sub
  | shl d a b =>
    cases hrow
    exact shiftReg_fitted (f := shiftUp) h hroom ht rfl hf shifted_u fun e h32 => progresses_shifted w h32 e
  | shr d a b =>
    cases hrow
    exact shiftReg_fitted (f := shiftDown) h hroom ht rfl hf plain_u fun e => absurd e (plain_not_a _ _)
  | clz d a =>
    cases hrow
    exact intUn_flat_fitted (f := fun t x => leadingZeros (t.pattern (BitVec.ofInt 64 x)) t.width) h hroom ht rfl hf
  | popc d a =>
    cases hrow
    exact intUn_flat_fitted (f := fun t x => oneBits (t.pattern (BitVec.ofInt 64 x)) t.width) h hroom ht rfl hf
  | addi d a imm =>
    cases hrow
    exact intUn_id_fitted (f := fun _ x => x + imm.toInt) h hroom ht rfl hf fun hx => hx.add (progresses_const imm.toInt)
  | shli d a c =>
    obtain ⟨hc, hrow⟩ := Option.ite_none_right_eq_some.1 hrow
    cases hrow
    exact shiftImm_fitted (f := shiftUp) h hroom ht rfl (immCount_ok hc) hf id
      fun e h32 => (progresses_intLane_of_a w h32 e).mul_const (2 ^ c.toNat)
  | shri d a c =>
    obtain ⟨hc, hrow⟩ := Option.ite_none_right_eq_some.1 hrow
    cases hrow
    exact shiftImm_fitted (f := shiftDown) h hroom ht rfl (immCount_ok hc) hf flat_u fun e => absurd e (flat_not_a _)
  | andi d a imm =>
    cases hrow
    exact intUn_flat_fitted (f := fun _ x => bitwise (fun p q => p &&& q) x imm.toNat) h hroom ht rfl hf
  | muli d a imm =>
    cases hrow
    exact intUn_id_fitted (f := fun _ x => x * imm.toInt) h hroom ht rfl hf fun hx => hx.mul_const imm.toInt
  | _ => cases hrow

end Sys2Proof.Machine
end

section
/-! The instructions of R93 and R95 to R98 that write a register. -/

namespace Sys2Proof.Machine

open Sys2Proof.Claims

/-! ### Shapes and checks -/

/-- Whether values fit a shape is decided by the 32 lanes. -/
theorem fitsT_congr (t : ETy) {f g : Nat → DWord} (sh : Shape) (hfg : ∀ n < 32, f n = g n) (hg : fitsT t g sh) :
    fitsT t f sh := by
  unfold fitsT at hg ⊢
  split <;> rename_i ht <;> simp only [ht, if_true, if_false, Bool.false_eq_true] at hg
  all_goals
    cases sh with
    | u => intro n hn; simpa only [hfg n hn, hfg 0 (by decide)] using hg n hn
    | a => intro n hn; simpa only [hfg n hn, hfg 0 (by decide), hfg 1 (by decide)] using hg n hn
    | g => trivial

/-- R53: under p0 the guard holds in every lane, or with GN in none. -/
theorem guardMask_p0 (w : Wave) (h : wmGP w.wm = 0) (n : Nat) (hn : n < 32) : (guardMask w).getLsbD n = !wmGN w.wm := by
  unfold guardMask predBits
  rw [h, if_pos rfl]
  cases wmGN w.wm
  · exact fullMask_getLsbD n hn
  · simp [fullMask_getLsbD n hn, hn]

/-- `SEL` under p0 is a move of one source (R98). -/
theorem fitsT_sel (w : Wave) (a b : Reg) :
    fitsT (wmET w.wm)
      (fun n => if (guardMask w).getLsbD n then laneT w.regs (wmET w.wm) a n else laneT w.regs (wmET w.wm) b n)
      (if wmGP w.wm = 0 then w.shapeOf (if wmGN w.wm then b else a) else .g) := by
  split
  · rename_i hp
    refine fitsT_congr _ _ (fun n hn => ?_) (fitsT_laneT w.regs (wmET w.wm) (if wmGN w.wm then b else a))
    rw [guardMask_p0 w hp n hn]
    cases wmGN w.wm <;> rfl
  · exact fitsT_g _ _

/-- What an accepted type and aligned fields pass (R76, R81). -/
theorem accept_ok {ok : ETy → Bool} {t : ETy} {fields : List Reg} (h : (ok t && fields.all (widened t)) = true) :
    accept ok t fields = .ok () := by
  obtain ⟨h₁, h₂⟩ := Bool.and_eq_true_iff.1 h
  rw [accept, if_pos h₁, require, if_pos h₂]

/-- A refused type (R76). -/
theorem accept_refused {ok : ETy → Bool} {t : ETy} (fields : List Reg) (h : ok t = false) :
    accept ok t fields = trapE .illegalType := by
  rw [accept, h]; rfl

/-- What `GETSR` checks before it reads (R93). -/
theorem getsrCheck_ok {priv : Bool} {n : Nat} {d : Reg}
    (h : ¬ ((srAccess n = .privRw ∧ (!priv) = true) ∨ srAccess n = .absent ∨ (sregWide n = true ∧ d.getLsbD 0 = true))) :
    getsrCheck priv n d = .ok () := by
  obtain ⟨h₁, h₂⟩ := not_or.1 h
  rw [getsrCheck, if_neg h₁, if_neg h₂]

/-! ### The instructions -/

section
variable {s : State} {w : Wave} (h : s.runs w) (hroom : w.roomFor 2)
include h hroom

theorem getsr_lanes (d : Reg) (n : BitVec 16) (hn : getsrCheck w.wsPriv n.toNat d = .ok ()) :
    writesLanes (.getsr d n) s w (activeMask w) (if sregWide n.toNat then .n64 else .n32) d
      fun _ => s.readSr s.cur w n.toNat := by
  refine issue_lanes _ s w h _ _ _ _ _ .u (Eq.refl (execGetsr d n s)) ?_ fun _ => fitsT_const _ _ fun _ => rfl
  rw [show getsrCheck w.issued.wsPriv n.toNat d = .ok () from hn]
  simp only [put_ok w.issued hroom]
  rfl

theorem ldi_lanes (d : Reg) (imm : BitVec 16) :
    writesLanes (.ldi d imm) s w (activeMask w) .n32 d fun _ => zext64 (imm.signExtend 32) :=
  own_lanes _ s w h _ _ _ _ _ .u (Eq.refl (execLdi d imm s)) (put_ok w.issued hroom _ _ _ _ _) fun _ => fitsT_const _ _ fun _ => rfl

theorem ldih_lanes (d : Reg) (imm : BitVec 16) :
    writesLanes (.ldih d imm) s w (activeMask w) .n32 d fun n => zext64 (imm ++ (lane w.regs d n).extractLsb' 0 16) := by
  refine own_lanes _ s w h _ _ _ _ _ (allU [shape32 w.regs d]) (Eq.refl (execLdih d imm s))
    (put_ok w.issued hroom _ _ _ _ _) fun _ => ?_
  refine fitsT_allU _ _ _ fun hu n => ?_
  rw [lane_of_u w.regs d (hu _ List.mem_cons_self) n]

theorem pcrel_lanes (d : Pair) (imm : BitVec 16) :
    writesLanes (.pcrel d imm) s w (activeMask w) .n64 (pairReg d) fun _ => w.pc + imm.signExtend 64 * 4 := by
  refine own_lanes _ s w h _ _ _ _ _ .u (Eq.refl (execPcrel d imm s))
    ((put_ok w.issued hroom _ _ _ _ _).trans ?_) fun _ => fitsT_const _ _ fun _ => rfl
  rw [show w.issued.pc - 4 = w.pc from BitVec.add_sub_cancel _ _]
  rfl

theorem cbase_lanes (d : Pair) (imm : BitVec 16) :
    writesLanes (.cbase d imm) s w (activeMask w) .n64 (pairReg d)
      fun _ => s.readSr s.cur w 0x030 + imm.zeroExtend 64 * 64 := by
  refine issue_lanes _ s w h _ _ _ _ _ .u (Eq.refl (execCbase d imm s)) ?_ fun _ => fitsT_const _ _ fun _ => rfl
  simp only [Wave.putPair, put_ok w.issued hroom]
  rfl

theorem mov_lanes (d a : Reg) (hok : (setAnyw (wmET w.wm) && [d, a].all (widened (wmET w.wm))) = true) :
    writesLanes (.mov d a) s w (activeMask w) (wmET w.wm) d (laneT w.regs (wmET w.wm) a) := by
  refine own_lanes _ s w h _ _ _ _ _ (w.shapeOf a) (Eq.refl (execMov d a s)) ?_ fun _ => fitsT_laneT w.regs (wmET w.wm) a
  have hc : accept setAnyw (wmET w.issued.wm) [d, a] = .ok () := accept_ok hok
  simp only [hc]
  exact put_ok w.issued hroom _ _ _ _ _

theorem sel_lanes (d a b : Reg) (hok : (setAnyw (wmET w.wm) && [d, a, b].all (widened (wmET w.wm))) = true) :
    writesLanes (.sel d a b) s w w.exec (wmET w.wm) d fun n =>
      if (guardMask w).getLsbD n then laneT w.regs (wmET w.wm) a n else laneT w.regs (wmET w.wm) b n := by
  refine own_lanes _ s w h _ _ _ _ _ _ (Eq.refl (execSel d a b s)) ?_ fun _ => fitsT_sel w a b
  have hc : accept setAnyw (wmET w.issued.wm) [d, a, b] = .ok () := accept_ok hok
  simp only [hc]
  exact put_ok w.issued hroom _ _ _ _ _

end

theorem mov_b128_traps (s : State) (w : Wave) (d a : Reg) (hw : s.wave s.cur = some w) (ht : wmET w.wm = .b128) :
    trapsAt (.mov d a) s w .illegalType 0 0 := by
  have hc : accept setAnyw (wmET w.issued.wm) [d, a] = trapE .illegalType := accept_refused _ (congrArg setAnyw ht)
  exact own_traps (.mov d a) s w _ hw (Eq.refl (execMov d a s)) (by simp only [hc]; rfl)

theorem sel_b128_traps (s : State) (w : Wave) (d a b : Reg) (hw : s.wave s.cur = some w) (ht : wmET w.wm = .b128) :
    trapsAt (.sel d a b) s w .illegalType 0 0 := by
  have hc : accept setAnyw (wmET w.issued.wm) [d, a, b] = trapE .illegalType := accept_refused _ (congrArg setAnyw ht)
  exact own_traps (.sel d a b) s w _ hw (Eq.refl (execSel d a b s)) (by simp only [hc]; rfl)

/-- The claim's rows of R93 and R95 to R98. -/
theorem moveRow_lanes {s : State} {w : Wave} {i : Instr} {x : LaneRow} (h : s.runs w) (hroom : w.roomFor 2)
    (hrow : moveRow s w i = some x) : writesLanes i s w x.lanes x.ty x.dest x.value := by
  cases i with
  | getsr d n =>
    obtain ⟨hn, hrow⟩ := Option.ite_none_left_eq_some.1 hrow
    cases hrow
    exact getsr_lanes h hroom d n (getsrCheck_ok hn)
  | ldi d imm =>
    cases hrow
    exact ldi_lanes h hroom d imm
  | ldih d imm =>
    cases hrow
    exact ldih_lanes h hroom d imm
  | pcrel d imm =>
    cases hrow
    exact pcrel_lanes h hroom d imm
  | cbase d imm =>
    cases hrow
    exact cbase_lanes h hroom d imm
  | mov d a =>
    obtain ⟨hok, hrow⟩ := Option.ite_none_right_eq_some.1 hrow
    cases hrow
    exact mov_lanes h hroom d a hok
  | sel d a b =>
    obtain ⟨hok, hrow⟩ := Option.ite_none_right_eq_some.1 hrow
    cases hrow
    exact sel_lanes h hroom d a b hok
  | _ => cases hrow

/-- Settles O2: the rows one by one, and the refusal of b128. -/
theorem moveResults : Obligations.MoveResults := by
  unfold Obligations.MoveResults
  exact fun s w => ⟨fun _ _ h hroom hrow => moveRow_lanes h hroom hrow,
    fun d a b hw ht => ⟨mov_b128_traps s w d a hw ht, sel_b128_traps s w d a b hw ht⟩⟩

end Sys2Proof.Machine
end

section
/-! `NOP` and the mode instructions (R90 to R92). -/

namespace Sys2Proof.Machine

/-! ### Which immediates the mode word takes (R57) -/

/-- Of the low half of a mode word only RM has reserved codes. -/
theorem wmLegal_low (imm : BitVec 16) : wmLegal (imm.setWidth 32) = decide ((imm.extractLsb' 12 3).toNat ≤ 5) := by
  have hrm : wmRM (imm.setWidth 32) = imm.extractLsb' 12 3 := BitVec.extractLsb'_setWidth_of_le (by decide)
  have high (lo n : Nat) (h : 16 ≤ lo) : (imm.setWidth 32).extractLsb' lo n = 0 := by
    ext k hk
    simp [BitVec.getElem_extractLsb', BitVec.getLsbD_of_ge imm (lo + k) (by omega)]
  simp only [wmLegal, hrm, wmMO, wmSC, high 16 3 (by decide), high 19 3 (by decide), high 24 8 (by decide)]
  simp

/-- Of the high half MO and SC have reserved codes. -/
theorem wmLegal_high (imm : BitVec 8) : wmLegal (imm.setWidth 32 <<< 16)
    = (decide ((imm.extractLsb' 0 3).toNat ≤ 4) && decide ((imm.extractLsb' 3 3).toNat ≤ 5)) := by
  revert imm
  decide

/-! ### The instructions -/

/-- A legal word becomes the mode word (R92). -/
theorem setMode_legal (w : Wave) {x : Word} (h : wmLegal x = true) : w.setMode x = .ok { w with wm := x } := if_pos h

/-- A word with a reserved code does not (R57). -/
theorem setMode_reserved (w : Wave) {x : Word} (h : wmLegal x = false) : w.setMode x = trapE .illegalMode :=
  if_neg (by rw [h]; exact Bool.false_ne_true)

section
variable {s : State} {w : Wave} (hw : s.wave s.cur = some w)
include hw

theorem nop_completes : exec .nop s = .next (s.onlyWave w.after) :=
  own_completes .nop s w w.issued _ hw (Eq.refl (execNop s)) rfl rfl

theorem model_completes (imm : BitVec 16) (h : (imm.extractLsb' 12 3).toNat ≤ 5) :
    exec (.model imm) s = .next (s.onlyWave { w.after with wm := w.wm.extractLsb' 16 16 ++ imm }) :=
  own_completes (.model imm) s w { w.issued with wm := w.wm.extractLsb' 16 16 ++ imm } _ hw (Eq.refl (execModel imm s))
    (if_pos (by simpa only [wmLegal_low, decide_eq_true_eq] using h)) rfl

theorem model_traps (imm : BitVec 16) (h : 5 < (imm.extractLsb' 12 3).toNat) : trapsAt (.model imm) s w .illegalMode 0 0 :=
  own_traps (.model imm) s w _ hw (Eq.refl (execModel imm s))
    (if_neg (by simpa only [wmLegal_low, decide_eq_true_eq, Nat.not_le] using h))

theorem modeh_completes (imm : BitVec 8) (hmo : (imm.extractLsb' 0 3).toNat ≤ 4) (hsc : (imm.extractLsb' 3 3).toNat ≤ 5) :
    exec (.modeh imm) s = .next (s.onlyWave { w.after with wm := 0#8 ++ imm ++ w.wm.extractLsb' 0 16 }) :=
  own_completes (.modeh imm) s w { w.issued with wm := 0#8 ++ imm ++ w.wm.extractLsb' 0 16 } _ hw (Eq.refl (execModeh imm s))
    (if_pos (by simpa only [wmLegal_high, Bool.and_eq_true, decide_eq_true_eq] using ⟨hmo, hsc⟩)) rfl

theorem modeh_traps (imm : BitVec 8) (h : 4 < (imm.extractLsb' 0 3).toNat ∨ 5 < (imm.extractLsb' 3 3).toNat) :
    trapsAt (.modeh imm) s w .illegalMode 0 0 :=
  own_traps (.modeh imm) s w _ hw (Eq.refl (execModeh imm s))
    (if_neg (by rw [wmLegal_high, Bool.and_eq_true, decide_eq_true_eq, decide_eq_true_eq]; omega))

theorem modev_no_lane (a : Reg) (h : w.exec = 0) : exec (.modev a) s = .next (s.onlyWave w.after) :=
  own_completes (.modev a) s w w.issued _ hw (Eq.refl (execModev a s)) (if_pos h) rfl

theorem modev_completes (a : Reg) (h : w.exec ≠ 0) (hl : wmLegal (lane w.regs a (lowestLane w.exec)) = true) :
    exec (.modev a) s = .next (s.onlyWave { w.after with wm := lane w.regs a (lowestLane w.exec) }) :=
  own_completes (.modev a) s w { w.issued with wm := lane w.regs a (lowestLane w.exec) } _ hw (Eq.refl (execModev a s))
    ((if_neg h).trans (setMode_legal w.issued hl)) rfl

theorem modev_traps (a : Reg) (h : w.exec ≠ 0) (hl : wmLegal (lane w.regs a (lowestLane w.exec)) = false) :
    trapsAt (.modev a) s w .illegalMode 0 0 :=
  own_traps (.modev a) s w _ hw (Eq.refl (execModev a s)) ((if_neg h).trans (setMode_reserved w.issued hl))

end

/-- Settles O8: each clause is one instruction, with or without a reserved code. -/
theorem modeWrites : Obligations.ModeWrites := by
  unfold Obligations.ModeWrites
  exact fun s w hw => ⟨nop_completes hw, model_completes hw, modeh_completes hw, modev_no_lane hw, modev_completes hw,
    model_traps hw, modeh_traps hw, modev_traps hw⟩

end Sys2Proof.Machine
end

section
/-! Control transfer (R133): each instruction goes to a target with a trace packet (R439), goes on to the next word, or refuses a
misaligned computed target (R71). -/

namespace Sys2Proof.Machine

open Sys2Proof.Claims

/-! ### The trace leaves the waves -/

@[simp] theorem putPacket_waves (s : State) (core : Nat) (pc : DWord) (slot kind : Nat) :
    (s.putPacket core pc slot kind).waves = s.waves := rfl

/-- The trace writes memory and the debug module of its core (R439), no wave. -/
@[simp] theorem trace_waves (s : State) (k pav ctx : Nat) (pc : DWord) (kind : Nat) :
    (s.trace k pav ctx pc kind).waves = s.waves := by
  unfold State.trace
  simp only
  split
  · rfl
  · simp only [apply_ite State.waves, setCore_waves, putPacket_waves, ite_self]

@[simp] theorem trace_wave (s : State) (k pav ctx : Nat) (pc : DWord) (kind j : Nat) :
    (s.trace k pav ctx pc kind).wave j = s.wave j := congrArg (Assoc.find · j) (trace_waves s k pav ctx pc kind)

/-! ### Going on -/

/-- The agent of a wave depends on its block and its number only. -/
theorem whoOf_congr (s : State) (k : Nat) {w w' : Wave} (hb : w'.block = w.block) (hu : w'.uid = w.uid) :
    s.whoOf k w' = s.whoOf k w := by
  unfold State.whoOf
  rw [hb, hu]

/-- A wave goes to a target, with a kind of trace packet, or on to the next word. -/
def State.goOn (s : State) (w : Wave) : Option (DWord × Nat) → State × Wave
  | none => (s, w)
  | some (t, kind) => s.goTo w t kind

theorem goOn_ite (s : State) (w : Wave) (c : Prop) [Decidable c] (t : DWord) (kind : Nat) :
    s.goOn w (if c then some (t, kind) else none) = if c then s.goTo w t kind else (s, w) := apply_ite (s.goOn w) c _ _

/-- An instruction whose effect is to go on, with its wave changed before. -/
theorem issue_goesTo (i : Instr) (s : State) (w w' : Wave) (target : Option (DWord × Nat)) (hw : s.wave s.cur = some w)
    (eff : State → Wave → Run (State × Wave)) (hx : exec i s = issue i s eff)
    (he : eff s w.issued = .ok (s.goOn w' target)) (hb : w'.block = w.block := by rfl) (hu : w'.uid = w.uid := by rfl)
    (hwait : w'.wait = .none := by rfl) (hk : keepsL1 w.atIssue i = true := by rfl) :
    goesTo i s w { w' with answers := [], retired := true } target := by
  unfold goesTo
  cases target with
  | none =>
    rw [hx, issue_ok i s s w w' w eff hw he hw, hk, hwait]
    rfl
  | some x =>
    obtain ⟨t, kind⟩ := x
    rw [hx, issue_ok i s _ w { w' with pc := t } w eff hw he ((trace_wave ..).trans hw), hk, hwait, whoOf_congr s s.cur hb hu]
    rfl

/-- An instruction whose effect also reads the machine, and traps. -/
theorem issue_traps (i : Instr) (s : State) (w : Wave) (eff : State → Wave → Run (State × Wave)) (hw : s.wave s.cur = some w)
    (hx : exec i s = issue i s eff) {c : Cause} {lanes : Word} {addr : DWord}
    (he : eff s w.issued = trapAt c lanes addr) : trapsAt i s w c lanes addr := by
  rw [trapsAt, hx]
  exact issue_trap i s w _ eff hw he

/-! ### Targets -/

/-- The target of a branch counts from its own word (R74, R133). -/
theorem target_issued (w : Wave) (off : Off24) : w.issued.target off = w.pc + sext64 off * 4 :=
  congrArg (· + sext64 off * 4) (BitVec.add_sub_cancel w.pc 4)

theorem checkTarget_aligned {t : DWord} (h : t.extractLsb' 0 2 = 0) : checkTarget t = .ok t := if_pos h

theorem checkTarget_misaligned {t : DWord} (h : t.extractLsb' 0 2 ≠ 0) : checkTarget t = trapAt .align 0 t := if_neg h

/-- `BRCA` asks whether every lane of `EXEC` is in the guard: the model looks for a lane outside it, `controlRow` compares. -/
theorem and_not_eq_zero_iff (x g : Word) : x &&& ~~~g = 0 ↔ x &&& g = x := by
  simp only [BitVec.eq_of_getElem_eq_iff, BitVec.getElem_and, BitVec.getElem_not, BitVec.ofNat_eq_ofNat,
    BitVec.getElem_zero]
  refine forall₂_congr fun n hn => ?_
  cases x[n] <;> cases g[n] <;> decide

/-! ### The instructions -/

section
variable {s : State} {w : Wave} (hw : s.wave s.cur = some w)
include hw

theorem bra_goesTo (off : Off24) : goesTo (.bra off) s w w.after (some (w.pc + sext64 off * 4, 0)) :=
  issue_goesTo (.bra off) s w w.issued _ hw _ (Eq.refl (execBra off s)) (by rw [← target_issued]; rfl)

theorem brc_goesTo (off : Off24) : goesTo (.brc off) s w w.after
    (if w.exec &&& guardMask w ≠ 0 then some (w.pc + sext64 off * 4, 0) else none) :=
  issue_goesTo (.brc off) s w w.issued _ hw _ (Eq.refl (execBrc off s)) (by rw [goOn_ite, ← target_issued]; rfl)

theorem brca_goesTo (off : Off24) : goesTo (.brca off) s w w.after
    (if w.exec ≠ 0 ∧ w.exec &&& guardMask w = w.exec then some (w.pc + sext64 off * 4, 0) else none) := by
  simp only [← and_not_eq_zero_iff]
  exact issue_goesTo (.brca off) s w w.issued _ hw _ (Eq.refl (execBrca off s)) (by rw [goOn_ite, ← target_issued]; rfl)

theorem call_goesTo (off : Off24) : goesTo (.call off) s w { w.after with lr := w.pc + 4 } (some (w.pc + sext64 off * 4, 1)) :=
  issue_goesTo (.call off) s w { w.issued with lr := w.pc + 4 } _ hw _ (Eq.refl (execCall off s))
    (by rw [← target_issued]; rfl)

theorem callr_goesTo (a : Pair) (h : (pairLane w.regs a (lowestLane w.exec)).extractLsb' 0 2 = 0) :
    goesTo (.callr a) s w { w.after with lr := w.pc + 4 } (some (pairLane w.regs a (lowestLane w.exec), 1)) :=
  issue_goesTo (.callr a) s w { w.issued with lr := w.pc + 4 } _ hw _ (Eq.refl (execCallr a s))
    (by dsimp only [Wave.issued, Wave.leadLane]; rw [checkTarget_aligned h]; rfl)

theorem jmpr_goesTo (a : Pair) (h : (pairLane w.regs a (lowestLane w.exec)).extractLsb' 0 2 = 0) :
    goesTo (.jmpr a) s w w.after (some (pairLane w.regs a (lowestLane w.exec), 0)) :=
  issue_goesTo (.jmpr a) s w w.issued _ hw _ (Eq.refl (execJmpr a s))
    (by dsimp only [Wave.issued, Wave.leadLane]; rw [checkTarget_aligned h]; rfl)

theorem ret_goesTo (h : w.lr.extractLsb' 0 2 = 0) : goesTo .ret s w w.after (some (w.lr, 2)) :=
  issue_goesTo .ret s w w.issued _ hw _ (Eq.refl (execRet s)) (by dsimp only [Wave.issued]; rw [checkTarget_aligned h]; rfl)

theorem callr_traps (a : Pair) (h : (pairLane w.regs a (lowestLane w.exec)).extractLsb' 0 2 ≠ 0) :
    trapsAt (.callr a) s w .align 0 (pairLane w.regs a (lowestLane w.exec)) :=
  issue_traps (.callr a) s w _ hw (Eq.refl (execCallr a s))
    (by dsimp only [Wave.issued, Wave.leadLane]; rw [checkTarget_misaligned h]; rfl)

theorem jmpr_traps (a : Pair) (h : (pairLane w.regs a (lowestLane w.exec)).extractLsb' 0 2 ≠ 0) :
    trapsAt (.jmpr a) s w .align 0 (pairLane w.regs a (lowestLane w.exec)) :=
  issue_traps (.jmpr a) s w _ hw (Eq.refl (execJmpr a s))
    (by dsimp only [Wave.issued, Wave.leadLane]; rw [checkTarget_misaligned h]; rfl)

theorem ret_traps (h : w.lr.extractLsb' 0 2 ≠ 0) : trapsAt .ret s w .align 0 w.lr :=
  issue_traps .ret s w _ hw (Eq.refl (execRet s)) (by dsimp only [Wave.issued]; rw [checkTarget_misaligned h]; rfl)

/-- Every row of R133 is what its instruction does; a computed target has a row where it is aligned. -/
theorem controlRow_goesTo (i : Instr) (t : Option (DWord × Nat)) (lr : DWord) (h : controlRow w i = some (t, lr)) :
    goesTo i s w { w.after with lr := lr } t := by
  cases i with
  | bra off =>
    cases h
    exact bra_goesTo hw off
  | brc off =>
    cases h
    exact brc_goesTo hw off
  | brca off =>
    cases h
    exact brca_goesTo hw off
  | call off =>
    cases h
    exact call_goesTo hw off
  | callr a =>
    obtain ⟨ha, h⟩ := Option.ite_none_right_eq_some.1 h
    cases h
    exact callr_goesTo hw a ha
  | ret =>
    obtain ⟨ha, h⟩ := Option.ite_none_right_eq_some.1 h
    cases h
    exact ret_goesTo hw ha
  | jmpr a =>
    obtain ⟨ha, h⟩ := Option.ite_none_right_eq_some.1 h
    cases h
    exact jmpr_goesTo hw a ha
  | _ => cases h

end

/-- Settles O11: each row of R133 is one instruction, and each of the three computed targets may be misaligned. -/
theorem controlTransfers : Obligations.ControlTransfers := by
  unfold Obligations.ControlTransfers
  exact fun s w hw => ⟨controlRow_goesTo hw, fun a h => ⟨callr_traps hw a h, jmpr_traps hw a h⟩, ret_traps hw⟩

end Sys2Proof.Machine
end

section
/-! Copy channels (R286 to R295): `CPYSET`, `CPYGO` and `WAITID`. `CPYGO` first keeps the record that it reads with its wave, then
checks a snapshot and starts it; what its effect sees of the machine is traced through these steps, each stated once. -/

namespace Sys2Proof.Machine

open Sys2Proof.Claims

/-! ### Blocks, waves and agents -/

theorem onBlock_some {s : State} {b : Nat} {x : Block} (h : s.block b = some x) (f : Block → Block) :
    s.onBlock b f = s.setBlock b (f x) := by
  unfold State.onBlock
  rw [h]

@[simp] theorem onBlock_waves (s : State) (b : Nat) (f : Block → Block) : (s.onBlock b f).waves = s.waves := by
  unfold State.onBlock
  cases s.block b <;> rfl

@[simp] theorem onBlock_cur (s : State) (b : Nat) (f : Block → Block) : (s.onBlock b f).cur = s.cur := by
  unfold State.onBlock
  cases s.block b <;> rfl

@[simp] theorem whoOf_core (s : State) (k : Nat) (w : Wave) : (s.whoOf k w).core = coreOf k := by
  unfold State.whoOf
  cases s.block w.block <;> rfl

@[simp] theorem whoOf_block (s : State) (k : Nat) (w : Wave) : (s.whoOf k w).block = w.block := by
  unfold State.whoOf
  cases s.block w.block <;> rfl

@[simp] theorem whoOf_uid (s : State) (k : Nat) (w : Wave) : (s.whoOf k w).uid = w.uid := by
  unfold State.whoOf
  cases s.block w.block <;> rfl

/-! ### Waves stay in their slots -/

/-- A map over a table that keeps the keys keeps what is listed. -/
theorem Assoc.find_map_isSome {α : Type} (f : Nat × α → Nat × α) (hf : ∀ x, (f x).1 = x.1) (m : Assoc α) (k : Nat) :
    (Assoc.find (m.map f) k).isSome = (Assoc.find m k).isSome := by
  induction m with
  | nil => rfl
  | cons x t ih =>
    simp only [List.map_cons, Assoc.find, hf]
    split
    · rfl
    · exact ih

@[simp] theorem wake_wave_isSome (s : State) (b : Nat) (r : Wait) (k : Nat) : ((s.wake b r).wave k).isSome = (s.wave k).isSome :=
  Assoc.find_map_isSome _ (fun x => by split <;> rfl) s.waves k

@[simp] theorem wakeRanges_wave_isSome (s : State) (k : Nat) : (s.wakeRanges.wave k).isSome = (s.wave k).isSome :=
  Assoc.find_map_isSome _ (fun x => by split <;> rfl) s.waves k

@[simp] theorem onBlock_wave (s : State) (b : Nat) (f : Block → Block) (k : Nat) : (s.onBlock b f).wave k = s.wave k :=
  congrArg (Assoc.find · k) (onBlock_waves s b f)

@[simp] theorem devWrite_wave (s : State) (a n x k : Nat) : (s.devWrite a n x).wave k = s.wave k := by
  unfold State.devWrite State.wave
  rw [performCells_frame]

@[simp] theorem putObject_wave (s : State) (key : Nat) (o : CompObj) (k : Nat) : (s.putObject key o).wave k = s.wave k := by
  simp only [State.putObject, devWrite_wave]

@[simp] theorem retireTx_wave_isSome (s : State) (b off k : Nat) : ((s.retireTx b off).wave k).isSome = (s.wave k).isSome := by
  unfold State.retireTx
  cases s.objectKey b off with
  | error e => rfl
  | ok key => simp only [wake_wave_isSome, putObject_wave]

/-- A retiring transfer wakes waves and ends none. -/
theorem retireTransfer_wave_isSome (s : State) (t : Transfer) (ch k : Nat) :
    ((s.retireTransfer t ch).wave k).isSome = (s.wave k).isSome := by
  unfold State.retireTransfer
  split <;> simp

/-! ### The record kept with the wave (R330) -/

/-- Keeping records changes the answers of the issuing wave at most. -/
theorem withRecords_cases {s : State} {w : Wave} (hw : s.wave s.cur = some w) (ids : Wave → List Nat) :
    s.withRecords ids = s ∨ ∃ l, s.withRecords ids = s.setWave s.cur { w with answers := l } := by
  unfold State.withRecords
  rw [hw]
  dsimp only
  split
  · exact .inl rfl
  · exact .inr ⟨_, rfl⟩

theorem withRecords_nil {s : State} {w : Wave} (hw : s.wave s.cur = some w) {ids : Wave → List Nat} (h : ids w = []) :
    s.withRecords ids = s := by
  unfold State.withRecords
  rw [hw]
  dsimp only
  rw [h]
  rfl

/-- What the effect of an instruction that keeps records finds: its slot, its wave but for the answers, its agent. -/
theorem withRecords_sees {s : State} {w w₀ : Wave} (hw : s.wave s.cur = some w) {ids : Wave → List Nat}
    (h₀ : (s.withRecords ids).wave s.cur = some w₀) :
    (s.withRecords ids).cur = s.cur ∧ (∃ l, w₀ = { w with answers := l }) ∧
      ∀ k v, (s.withRecords ids).whoOf k v = s.whoOf k v := by
  obtain h | ⟨l, h⟩ := withRecords_cases hw ids
  · rw [h, hw] at h₀
    cases h₀
    rw [h]
    exact ⟨rfl, ⟨w.answers, rfl⟩, fun _ _ => rfl⟩
  · rw [h, wave_setWave_same] at h₀
    cases h₀
    rw [h]
    exact ⟨rfl, ⟨l, rfl⟩, fun _ _ => rfl⟩

/-! ### The snapshot (R290, R291) -/

/-- A use of a record fills the block's cache: no wave changes. -/
theorem useRecord_frame {s s' : State} {w : Wave} {who : Who} {i : Nat} {va : DWord} {r : Line}
    (h : s.useRecord w who i = .ok (s', va, r)) : s'.waves = s.waves ∧ s'.cur = s.cur := by
  unfold State.useRecord at h
  dsimp only at h
  split at h
  · cases h
    exact ⟨rfl, rfl⟩
  · split at h
    · cases h
    · cases h
      exact ⟨onBlock_waves .., onBlock_cur ..⟩

theorem snapshot_frame {s s' : State} {w : Wave} {who : Who} {ch : Nat} {t : Transfer}
    (h : s.snapshot w who ch = .ok (s', t)) : s'.waves = s.waves ∧ s'.cur = s.cur := by
  unfold State.snapshot at h
  dsimp only at h
  split at h
  · cases h
  split at h
  · cases h
    exact ⟨rfl, rfl⟩
  split at h
  · cases h
  next hrec =>
    split at h
    · cases h
    split at h
    · cases h
    split at h
    · cases h
      exact useRecord_frame hrec
    · cases h

theorem snapshot_wave {s s' : State} {w : Wave} {who : Who} {ch : Nat} {t : Transfer}
    (h : s.snapshot w who ch = .ok (s', t)) (k : Nat) : s'.wave k = s.wave k :=
  congrArg (Assoc.find · k) (snapshot_frame h).1

/-- The snapshot does not see how far the wave has issued. -/
theorem snapshot_issued (s : State) (w : Wave) (who : Who) (ch : Nat) : s.snapshot w.issued who ch = s.snapshot w who ch := rfl

/-! ### A transfer starts (R286, R287, R290, R295) -/

/-- The transfer that a snapshot starts: with its id, and the range it holds. -/
def State.startedTransfer (s : State) (who : Who) (h : Half) (ch : BitVec 2) (t : Transfer) : Transfer :=
  { t with id := copyNext h ch, range := if t.total = 0 then none else s.copyRange who t }

/-- NEXT of a block's half goes on, and the transfer retires at once or joins its channel's queue. -/
def State.startTransfer (s : State) (who : Who) (x : Block) (h : Half) (ch : BitVec 2) (t : Transfer) : State :=
  let t' := s.startedTransfer who h ch t
  let s₂ := (s.release who.uid true).setBlock who.block (x.onHalf who.core fun y =>
    { y with next := y.next.setIfInBounds ch.toNat (copyNext h ch + 1) })
  let c := s.core who.core
  if t.total = 0 then s₂.retireTransfer t' ch.toNat
  else s₂.setCore who.core { c with chans := c.chans.setIfInBounds ch.toNat ((c.chans[ch.toNat]?).getD [] ++ [t']) }

theorem startTransfer_wave_isSome (s : State) (who : Who) (x : Block) (h : Half) (ch : BitVec 2) (t : Transfer) (k : Nat) :
    ((s.startTransfer who x h ch t).wave k).isSome = (s.wave k).isSome := by
  unfold State.startTransfer
  dsimp only
  split
  · simp [retireTransfer_wave_isSome]
  · simp

@[simp] theorem release_block (s : State) (uid : Nat) (u : Bool) (b : Nat) : (s.release uid u).block b = s.block b :=
  congrArg (Assoc.find · b) (release_blocks s uid u)

@[simp] theorem release_core (s : State) (uid : Nat) (u : Bool) (c : Nat) : (s.release uid u).core c = s.core c :=
  congrArg (fun m => (Assoc.find m c).getD ({} : CoreState)) (release_cores s uid u)

/-- The effect of `CPYGO` whose checks pass and which finds room in its channel and in the scoreboard. -/
theorem cpygoBody_starts {s s₁ : State} {w : Wave} {d : Reg} {ch : BitVec 2} {t : Transfer} {x : Block} {h : Half}
    (hexec : w.exec ≠ 0) (hbudget : w.roomFor 2)
    (hsnap : s.snapshot w (s.whoOf s.cur w) ch.toNat = .ok (s₁, t)) (hchecks : s₁.copyChecks (s.whoOf s.cur w) t = .ok ())
    (hx : s₁.block w.block = some x) (hh : x.half (coreOf s.cur) = some h)
    (hqueue : (((s₁.core (coreOf s.cur)).chans[ch.toNat]?).getD []).length < 16)
    (hrange : (s₁.startedTransfer (s.whoOf s.cur w) h ch t).range.isSome = true → (s₁.core (coreOf s.cur)).rangesHeld < 16) :
    cpygoBody d ch s w = .ok (s₁.startTransfer (s.whoOf s.cur w) x h ch t,
      { w with regs := writeT w.regs w.exec .n32 d (fun _ => zext64 (copyNext h ch)) .u }) := by
  have hroom : ¬ (16 ≤ (((s₁.core (coreOf s.cur)).chans[ch.toNat]?).getD []).length ∨
      ((if t.total = 0 then none else s₁.copyRange (s.whoOf s.cur w) t).isSome = true ∧
        16 ≤ (s₁.core (coreOf s.cur)).rangesHeld)) :=
    not_or.2 ⟨Nat.not_le.2 hqueue, fun ⟨hr, hheld⟩ => absurd (hrange hr) (Nat.not_lt.2 hheld)⟩
  have hid : (((s₁.block w.block).bind fun b => b.half (coreOf s.cur)).bind fun h => h.next[ch.toNat]?).getD 1
      = copyNext h ch := by
    rw [hx, Option.bind_some, hh]
    rfl
  unfold cpygoBody State.startTransfer State.startedTransfer
  simp only [hsnap, hchecks, whoOf_core, whoOf_block, whoOf_uid, if_neg hexec, if_neg hroom, hid, Wave.put32,
    put_ok w hbudget, onBlock_some ((release_block s₁ w.uid true w.block).trans hx), setBlock_core, release_core]
  exact (apply_ite (fun u => (.ok (u, _) : Run (State × Wave))) (t.total = 0) _ _).symm

/-! ### The instructions -/

theorem cpyset_completes {s : State} {w : Wave} (hw : s.wave s.cur = some w) (a : Pair) (reg : BitVec 3) (ch : BitVec 2) :
    exec (.cpyset a reg ch) s = .next (s.onlyWave (if w.exec = 0 then w.after else
      { w.after with
        shadow := w.shadow.setIfInBounds (8 * ch.toNat + reg.toNat) (pairLane w.regs a (lowestLane w.exec)) })) := by
  split
  next h => exact own_completes _ s w w.issued _ hw (Eq.refl (execCpyset a reg ch s)) (if_pos h) rfl
  next h =>
    exact own_completes _ s w { w.issued with
      shadow := w.shadow.setIfInBounds (8 * ch.toNat + reg.toNat) (pairLane w.regs a (lowestLane w.exec)) } _ hw
      (Eq.refl (execCpyset a reg ch s)) (if_neg h) rfl

/-- An instruction that changes nothing, before which its core's L1 gives up its lines. -/
theorem issue_nothing (i : Instr) {s : State} {w : Wave} (hw : s.wave s.cur = some w) (eff : State → Wave → Run (State × Wave))
    (hx : exec i s = issue i s eff) (he : eff s w.issued = .ok (s, w.issued)) (hk : keepsL1 w.atIssue i = false := by rfl) :
    exec i s = .next ((cold s s).onlyWave w.after) := by
  rw [hx, issue_ok i s s w w.issued w eff hw he hw, hk]
  rfl

/-- An instruction that waits stays at its issue point (R205). -/
theorem issue_waits (i : Instr) {s : State} {w : Wave} (hw : s.wave s.cur = some w) (eff : State → Wave → Run (State × Wave))
    (r : Wait) (hx : exec i s = issue i s eff) (he : eff s w.issued = .error (.wait r)) :
    exec i s = .next (s.onlyWave { w.atIssue with wait := r }) := by
  rw [hx]
  unfold issue
  rw [hw]
  dsimp only
  rw [show ({ ({ w with wait := .none, retired := false } : Wave) with pc := w.pc + 4 } : Wave) = w.issued from rfl, he]
  rfl

theorem cpygo_no_lane {s : State} {w : Wave} (hw : s.wave s.cur = some w) (d : Reg) (ch : BitVec 2) (h : w.exec = 0) :
    exec (.cpygo d ch) s = .next ((cold s s).onlyWave w.after) := by
  have hrecords : copyRecords ch w = [] := if_pos (.inl h)
  refine issue_nothing (.cpygo d ch) hw (cpygoBody d ch) ?_ (if_pos h)
  exact (Eq.refl (execCpygo d ch s)).trans (congrArg (issue (.cpygo d ch) · (cpygoBody d ch)) (withRecords_nil hw hrecords))

/-- `CPYGO` starts its transfer and gives the id to the lanes of `EXEC`. -/
theorem cpygo_starts {s s₁ : State} {w w₀ : Wave} {d : Reg} {ch : BitVec 2} {t : Transfer} {x : Block} {h : Half}
    (hrun : s.runs w) (hbudget : w.roomFor 2) (hexec : w.exec ≠ 0)
    (h₀ : (s.withRecords (copyRecords ch)).wave s.cur = some w₀)
    (hsnap : (s.withRecords (copyRecords ch)).snapshot w₀ (s.whoOf s.cur w) ch.toNat = .ok (s₁, t))
    (hchecks : s₁.copyChecks (s.whoOf s.cur w) t = .ok ())
    (hx : s₁.block w.block = some x) (hh : x.half (coreOf s.cur) = some h)
    (hqueue : (((s₁.core (coreOf s.cur)).chans[ch.toNat]?).getD []).length < 16)
    (hrange : (s₁.startedTransfer (s.whoOf s.cur w) h ch t).range.isSome = true → (s₁.core (coreOf s.cur)).rangesHeld < 16) :
    ∃ R, lanesWritten w.regs R w.exec .n32 d (fun _ => zext64 (copyNext h ch))
      ∧ exec (.cpygo d ch) s = .next ((cold s (s₁.startTransfer (s.whoOf s.cur w) x h ch t)).setWave s.cur
        { w.after with regs := R }) := by
  obtain ⟨hw, hregs⟩ := hrun
  obtain ⟨hcur, ⟨l, rfl⟩, hwho⟩ := withRecords_sees hw h₀
  refine ⟨_, lanesWritten_writeT w.regs hregs w.exec .n32 d _ .u fun _ => fitsT_const _ _ fun _ => rfl, ?_⟩
  generalize hs₀ : s.withRecords (copyRecords ch) = s₀ at *
  have hissued : s₀.whoOf s₀.cur ({ w with answers := l } : Wave).issued = s.whoOf s.cur w := by
    rw [hwho, hcur]
    exact whoOf_congr s s.cur rfl rfl
  have hbody := cpygoBody_starts (s := s₀) (w := ({ w with answers := l } : Wave).issued) (d := d) hexec hbudget
    (by rw [hissued, snapshot_issued]; exact hsnap) (by rw [hissued]; exact hchecks) hx (by rw [hcur]; exact hh)
    (by rw [hcur]; exact hqueue) (by rw [hissued, hcur]; exact hrange)
  rw [hissued] at hbody
  obtain ⟨w₁, hw₁⟩ : ∃ w₁, (s₁.startTransfer (s.whoOf s.cur w) x h ch t).wave s₀.cur = some w₁ :=
    Option.isSome_iff_exists.1 (by rw [startTransfer_wave_isSome, snapshot_wave hsnap, hcur, h₀]; rfl)
  have hissue : exec (.cpygo d ch) s = issue (.cpygo d ch) s₀ (cpygoBody d ch) := by rw [← hs₀]; rfl
  rw [hissue, issue_ok _ s₀ _ _ _ w₁ _ (by rw [hcur]; exact h₀) hbody hw₁, hcur]
  rfl

section
variable {s : State} {w : Wave} {x : Block} {h : Half} (hx : s.block w.block = some x) (hh : x.half (coreOf s.cur) = some h)
include hx hh

/-- `WAITID` tells by DONE and NEXT of its block's half whether an id has retired, is outstanding, or neither (R286, R292). -/
theorem waitid_effect (a : Reg) (ch : BitVec 2) : ∃ eff, exec (.waitid a ch) s = issue (.waitid a ch) s eff ∧
    eff s w.issued =
      let id := lane w.regs a w.leadLane
      let done := (h.done[ch.toNat]?).getD 1
      if 0 < (done - id).toNat ∧ (done - id).toNat ≤ 2 ^ 31 then .ok (s, w.issued)
      else if (id - done).toNat < (copyNext h ch - done).toNat then .error (.wait .transfer)
      else trapE .illegalOperand := by
  refine ⟨_, Eq.refl (execWaitid a ch s), ?_⟩
  have hhalf : ((s.block w.issued.block).bind fun b => b.half (coreOf s.cur)) = some h := by
    rw [show w.issued.block = w.block from rfl, hx, Option.bind_some, hh]
  simp only [hhalf, Option.bind_some]
  rfl

variable (hw : s.wave s.cur = some w)
include hw

theorem waitid_retired (a : Reg) (ch : BitVec 2)
    (hpos : 0 < ((h.done[ch.toNat]?).getD 1 - lane w.regs a w.leadLane).toNat)
    (hle : ((h.done[ch.toNat]?).getD 1 - lane w.regs a w.leadLane).toNat ≤ 2 ^ 31) :
    exec (.waitid a ch) s = .next ((cold s s).onlyWave w.after) := by
  obtain ⟨eff, hexec, heff⟩ := waitid_effect hx hh a ch
  exact issue_nothing _ hw eff hexec (heff.trans (if_pos ⟨hpos, hle⟩))

theorem waitid_waits (a : Reg) (ch : BitVec 2)
    (hret : ((h.done[ch.toNat]?).getD 1 - lane w.regs a w.leadLane).toNat = 0
      ∨ 2 ^ 31 < ((h.done[ch.toNat]?).getD 1 - lane w.regs a w.leadLane).toNat)
    (hout : (lane w.regs a w.leadLane - (h.done[ch.toNat]?).getD 1).toNat
      < (copyNext h ch - (h.done[ch.toNat]?).getD 1).toNat) :
    exec (.waitid a ch) s = .next (s.onlyWave { w.atIssue with wait := .transfer }) := by
  obtain ⟨eff, hexec, heff⟩ := waitid_effect hx hh a ch
  exact issue_waits _ hw eff _ hexec (heff.trans ((if_neg (by omega)).trans (if_pos hout)))

theorem waitid_traps (a : Reg) (ch : BitVec 2)
    (hret : ((h.done[ch.toNat]?).getD 1 - lane w.regs a w.leadLane).toNat = 0
      ∨ 2 ^ 31 < ((h.done[ch.toNat]?).getD 1 - lane w.regs a w.leadLane).toNat)
    (hout : (copyNext h ch - (h.done[ch.toNat]?).getD 1).toNat
      ≤ (lane w.regs a w.leadLane - (h.done[ch.toNat]?).getD 1).toNat) :
    trapsAt (.waitid a ch) s w .illegalOperand 0 0 := by
  obtain ⟨eff, hexec, heff⟩ := waitid_effect hx hh a ch
  exact issue_traps _ s w eff hw hexec (heff.trans ((if_neg (by omega)).trans (if_neg (by omega))))

end

/-- Settles O33: each clause is one instruction. -/
theorem copies : Obligations.Copies := by
  unfold Obligations.Copies
  intro s w ch hrun hbudget
  refine ⟨fun a reg => cpyset_completes hrun.1 a reg ch, fun d h => cpygo_no_lane hrun.1 d ch h, ?_, ?_⟩
  · intro d w₀ s₁ t x h hexec s₀ h₀ hsnap hchecks hx hh queue t' hqueue hrange s₂ c
    obtain ⟨R, hR, hstep⟩ := cpygo_starts (d := d) hrun hbudget hexec h₀ hsnap hchecks hx hh hqueue hrange
    refine ⟨R, hR, hstep.trans ?_⟩
    simp only [State.startTransfer, whoOf_core, whoOf_block, whoOf_uid]
    rfl
  · exact fun a x h hx hh => ⟨waitid_retired hx hh hrun.1 a ch, waitid_waits hx hh hrun.1 a ch,
      waitid_traps hx hh hrun.1 a ch⟩

end Sys2Proof.Machine
end
